-- ==== Sys2Proof/Word.lean ====
section
/-! DEFINITION. The widths of the block's quantities (spec/00_scope.md rule R6, rule R8): bytes, the 4-bit
nibbles of a PCI byte, and the 12-bit lengths. All are unsigned. -/

namespace Sys2Proof

/-- A byte: bit 7 is the most significant (R8). -/
abbrev Byte := BitVec 8

/-- A 4-bit field: a frame type, a Single-Frame length `L`, a sequence nibble `SN` (R51, R57). -/
abbrev Nibble := BitVec 4

/-- A 12-bit length: `buf_len`, `expected_total`, `total_length`, `CAPACITY`, `rd_idx` (R12, R13, R57, R124). -/
abbrev Length := BitVec 12

end Sys2Proof
end

