-- ==== Sys2Proof/Config.lean ====
section
/-! DEFINITION. What an instance fixes at construction (spec/00_scope.md rule R4 to rule R6) and the model's one
free value (spec/93_implementation_defined.md U11). -/

namespace Sys2Proof

/-- The two parameters of an instance, fixed at construction and never written (R6, R15). `CAPACITY` ranges over
0..4095, which is exactly the 12-bit numbers (D13); `FRAME_CAP` is any natural number from 1 up (D14, `Config.wf`). -/
structure Config where
  /-- `CAPACITY`: the most payload bytes the instance holds; also the largest accepted `total_length` (R4). -/
  capacity : Length
  /-- `FRAME_CAP`: the most bytes in one frame (R5). -/
  frameCap : Nat
deriving DecidableEq, Repr

/-- The range of R6 that the types do not already say: `FRAME_CAP >= 1`. -/
abbrev Config.wf (c : Config) : Prop := 1 ≤ c.frameCap

/-- The reference values of R6. -/
def Config.reference : Config := { capacity := 4095#12, frameCap := 8 }

/-- FREE VALUE. What a cell of `BUF` that nothing has written holds: any value, one per address
(U11; `10_state.md` rule R23: unspecified). Nothing can be proved about it. Log entry 6. -/
opaque Config.unwrittenByte : Nat → Byte

end Sys2Proof
end

