-- ==== Sys2Proof/Syntax.lean ====
section
/-! DEFINITION. The instructions: one constructor per row of spec/opcode_table.json. The sixteen frame rows are the
operand forms of UPDATE (spec/INDEX.md); the four host operations have no bit encoding. -/

namespace Sys2Proof

/-- One host operation, in the form the opcode table gives it.

A frame row carries ALL the bytes of its frame: the fields of its header and the bytes that follow it, those the
block ignores included, so that nothing of the frame is lost between decoding and running it. `update` is the
operation UPDATE on a frame given as raw bytes (R62's `RAW` form); it is the only form for the two kinds of frame
that match no frame row: the empty frame and the First Frame of one byte. Log entry 10. -/
inductive Instr where
  /-- `SF`: `frame[0] = 0x0L`, then `frame[1 ..]` (R53). -/
  | sf (L : Nibble) (rest : List Byte)
  /-- `FF`: `frame[0] = 0x1T`, `frame[1] = TT`, then the initial chunk `frame[2 ..]` (R54). -/
  | ff (totalLength : Length) (payload : List Byte)
  /-- `CF`: `frame[0] = 0x2N`, then the candidate payload `frame[1 ..]` (R55). -/
  | cf (SN : Nibble) (payload : List Byte)
  /-- `FC`: `frame[0] = 0x3x`; the low nibble and the later bytes are not examined (R56). -/
  | fc (lo : Nibble) (rest : List Byte)
  /-- `RSV4`: reserved type 0x4 (R59). -/
  | rsv4 (lo : Nibble) (rest : List Byte)
  /-- `RSV5`: reserved type 0x5 (R59). -/
  | rsv5 (lo : Nibble) (rest : List Byte)
  /-- `RSV6`: reserved type 0x6 (R59). -/
  | rsv6 (lo : Nibble) (rest : List Byte)
  /-- `RSV7`: reserved type 0x7 (R59). -/
  | rsv7 (lo : Nibble) (rest : List Byte)
  /-- `RSV8`: reserved type 0x8 (R59). -/
  | rsv8 (lo : Nibble) (rest : List Byte)
  /-- `RSV9`: reserved type 0x9 (R59). -/
  | rsv9 (lo : Nibble) (rest : List Byte)
  /-- `RSVA`: reserved type 0xA (R59). -/
  | rsvA (lo : Nibble) (rest : List Byte)
  /-- `RSVB`: reserved type 0xB (R59). -/
  | rsvB (lo : Nibble) (rest : List Byte)
  /-- `RSVC`: reserved type 0xC (R59). -/
  | rsvC (lo : Nibble) (rest : List Byte)
  /-- `RSVD`: reserved type 0xD (R59). -/
  | rsvD (lo : Nibble) (rest : List Byte)
  /-- `RSVE`: reserved type 0xE (R59). -/
  | rsvE (lo : Nibble) (rest : List Byte)
  /-- `RSVF`: reserved type 0xF (R59). -/
  | rsvF (lo : Nibble) (rest : List Byte)
  /-- `RESET` (R122). -/
  | reset
  /-- `UPDATE` on a raw frame, `frame_len = frame.length` (R100). -/
  | update (frame : List Byte)
  /-- `READY` (R120). -/
  | ready
  /-- `DATA` (R121). -/
  | data
deriving DecidableEq, Repr

end Sys2Proof
end

