-- ==== Sys2Proof/WellFormed.lean ====
section
/-! DEFINITION. When an instruction is inside the block's contract (spec/30_encoding.md rule R50: `frame_len` is at
most `FRAME_CAP`), and which spelling of UPDATE is the decoder's own. -/

namespace Sys2Proof

/-- `frame_len` of the frame an instruction hands to UPDATE; a host operation without a frame has none. -/
def Instr.frameLen : Instr → Option Nat
  | .sf _ rest => some (rest.length + 1)
  | .ff _ payload => some (payload.length + 2)
  | .cf _ payload => some (payload.length + 1)
  | .fc _ rest => some (rest.length + 1)
  | .rsv4 _ rest => some (rest.length + 1)
  | .rsv5 _ rest => some (rest.length + 1)
  | .rsv6 _ rest => some (rest.length + 1)
  | .rsv7 _ rest => some (rest.length + 1)
  | .rsv8 _ rest => some (rest.length + 1)
  | .rsv9 _ rest => some (rest.length + 1)
  | .rsvA _ rest => some (rest.length + 1)
  | .rsvB _ rest => some (rest.length + 1)
  | .rsvC _ rest => some (rest.length + 1)
  | .rsvD _ rest => some (rest.length + 1)
  | .rsvE _ rest => some (rest.length + 1)
  | .rsvF _ rest => some (rest.length + 1)
  | .update frame => some frame.length
  | .reset => none
  | .ready => none
  | .data => none

/-- An instruction is well formed for an instance when its frame, if it has one, is at most `FRAME_CAP` bytes
(R50, D4). -/
def Instr.wf (c : Config) (i : Instr) : Bool :=
  match i.frameLen with
  | none => true
  | some n => decide (n ≤ c.frameCap)

/-- Whether a frame matches one of the sixteen frame rows of the opcode table. Only the empty frame (R71) and the
First Frame of one byte (R74: it needs `frame_len >= 2`) match none. -/
def matchesFrameRow : List Byte → Bool
  | [] => false
  | [b0] => decide (b0.extractLsb' 4 4 ≠ 0x1#4)
  | _ :: _ :: _ => true

/-- The spelling the decoder gives: every frame row and host operation, and `update` only for a frame that matches
no frame row. `update` on any other frame runs as well and means the same as the frame row (log entry 10). -/
def Instr.canonical : Instr → Bool
  | .update frame => !matchesFrameRow frame
  | _ => true

end Sys2Proof
end

