-- ==== Sys2Proof/Decode.lean ====
section
/-! DEFINITION. The frame format (spec/30_encoding.md): the decoder from a host operation at the ports to an
instruction, total, and after it the encoder, written from the same tables. -/

namespace Sys2Proof

/-- One operation as the host issues it, before decoding (R7): which port group is used and, for UPDATE, the bytes
of the one frame handed over (`frame_len` is their number, R50). Host operations have no bit encoding: each is its
own port group (R124). -/
inductive HostOp where
  /-- `rst` sampled 1. -/
  | reset
  /-- `frame_valid` with the frame on the lanes; `frame[0]`, the first byte on the wire, first. -/
  | update (frame : List Byte)
  /-- The level output `ready` is read. -/
  | ready
  /-- `data_valid`, `data_len` and `rd_byte` are read. -/
  | data
deriving DecidableEq, Repr

/-- Why the decoder gives no instruction. -/
inductive DecodeReject where
  /-- The frame has more than `FRAME_CAP` bytes: outside the block's contract (R50, D4). -/
  | frameTooLong
deriving DecidableEq, Repr

/-- `type = frame[0][7:4]` (R51). -/
def typeNibble (b0 : Byte) : Nibble := b0.extractLsb' 4 4

/-- `lo = frame[0][3:0]` (R51). -/
def lowNibble (b0 : Byte) : Nibble := b0.extractLsb' 0 4

/-- Byte 0 from its two fields. -/
def byte0 (type lo : Nibble) : Byte := type ++ lo

/-- `total_length = {frame[0][3:0], frame[1][7:0]}`, big-endian (R33, R54). -/
def joinLength (lo : Nibble) (b1 : Byte) : Length := lo ++ b1

/-- `total_length[11:8]` (R54). -/
def lengthHigh (t : Length) : Nibble := t.extractLsb' 8 4

/-- `total_length[7:0]` (R54). -/
def lengthLow (t : Length) : Byte := t.extractLsb' 0 8

/-- The opcode map on a frame (R52, R59, R64): the type nibble of byte 0 alone selects the row. A frame that matches
no row stays an UPDATE on its raw bytes. -/
def decodeFrame (frame : List Byte) : Instr :=
  match frame with
  | [] => .update []
  | b0 :: rest =>
    let lo := lowNibble b0
    match (typeNibble b0).toNat with
    | 0x0 => .sf lo rest
    | 0x1 =>
      match rest with
      | [] => .update [b0]
      | b1 :: payload => .ff (joinLength lo b1) payload
    | 0x2 => .cf lo rest
    | 0x3 => .fc lo rest
    | 0x4 => .rsv4 lo rest
    | 0x5 => .rsv5 lo rest
    | 0x6 => .rsv6 lo rest
    | 0x7 => .rsv7 lo rest
    | 0x8 => .rsv8 lo rest
    | 0x9 => .rsv9 lo rest
    | 0xA => .rsvA lo rest
    | 0xB => .rsvB lo rest
    | 0xC => .rsvC lo rest
    | 0xD => .rsvD lo rest
    | 0xE => .rsvE lo rest
    | _ => .rsvF lo rest

/-- The decoder: total on every operation, rejecting by name only a frame longer than `FRAME_CAP` (R50, D4). -/
def decode (c : Config) (op : HostOp) : Except DecodeReject Instr :=
  match op with
  | .reset => .ok .reset
  | .ready => .ok .ready
  | .data => .ok .data
  | .update frame => if c.frameCap < frame.length then .error .frameTooLong else .ok (decodeFrame frame)

/-- The encoder: the host operation that carries an instruction, from the formats of R53 to R56, R59 and R62. -/
def encode (i : Instr) : HostOp :=
  match i with
  | .sf L rest => .update (byte0 0x0#4 L :: rest)
  | .ff t payload => .update (byte0 0x1#4 (lengthHigh t) :: lengthLow t :: payload)
  | .cf sn payload => .update (byte0 0x2#4 sn :: payload)
  | .fc lo rest => .update (byte0 0x3#4 lo :: rest)
  | .rsv4 lo rest => .update (byte0 0x4#4 lo :: rest)
  | .rsv5 lo rest => .update (byte0 0x5#4 lo :: rest)
  | .rsv6 lo rest => .update (byte0 0x6#4 lo :: rest)
  | .rsv7 lo rest => .update (byte0 0x7#4 lo :: rest)
  | .rsv8 lo rest => .update (byte0 0x8#4 lo :: rest)
  | .rsv9 lo rest => .update (byte0 0x9#4 lo :: rest)
  | .rsvA lo rest => .update (byte0 0xA#4 lo :: rest)
  | .rsvB lo rest => .update (byte0 0xB#4 lo :: rest)
  | .rsvC lo rest => .update (byte0 0xC#4 lo :: rest)
  | .rsvD lo rest => .update (byte0 0xD#4 lo :: rest)
  | .rsvE lo rest => .update (byte0 0xE#4 lo :: rest)
  | .rsvF lo rest => .update (byte0 0xF#4 lo :: rest)
  | .reset => .reset
  | .update frame => .update frame
  | .ready => .ready
  | .data => .data

/-- The frame whose bits are the low `nbits` bits of `w`, byte 0 in bits 7..0, byte 1 in bits 15..8, and so on, every
bit above them 0 up to the longest frame, `cap` bytes: the lanes as the host drives them for an opcode-table row
(log entry 13). -/
def tableFrame (cap nbits w : Nat) : List Byte :=
  (List.range (max cap ((nbits + 7) / 8))).map fun i => BitVec.ofNat 8 ((w % 2 ^ nbits) >>> (8 * i))

/-- The instruction the decoder of the reference instance reads from an opcode-table row's bits. -/
def decodeTableWord (nbits w : Nat) : Option Instr :=
  match decode Config.reference (.update (tableFrame Config.reference.frameCap nbits w)) with
  | .ok i => some i
  | .error _ => none

end Sys2Proof
end

