-- ==== Sys2Proof/Machine/State.lean ====
section
/-! DEFINITION. The state (spec/10_state.md): the five registers and `BUF`, the instance's constants, and the model's
own three fields: whether RESET has been issued since power-up, what the last operation returned, and the operations
the host has issued and the block has not yet taken. -/

namespace Sys2Proof.Machine

/-- The three values of the register `state` (R11). The encoding `0b11` is unreachable and has no constructor (U12,
log entry 15). -/
inductive Phase where
  | idle
  | receiving
  | complete
deriving DecidableEq, Repr

/-- The eight typed failures an UPDATE can return (R140). They are the block's exceptions: each is a response, never
a stop of the machine. -/
inductive Failure where
  /-- R141: too short to contain its declared header. -/
  | malformedFrame
  /-- R142: PCI high nibble not in 0, 1, 2, 3. -/
  | unknownFrameType
  /-- R143: Single Frame declares more payload than the frame carries. -/
  | lengthMismatch
  /-- R144: First Frame's declared total exceeds configured capacity. -/
  | tooLarge
  /-- R145: accumulated bytes would exceed the declared or configured total. -/
  | overflow
  /-- R146: Consecutive Frame with no transfer in progress. -/
  | unexpectedFrame
  /-- R147: Consecutive Frame out of order. -/
  | sequenceMismatch
  /-- R148: Flow-Control frame. -/
  | unsupported
deriving DecidableEq, Repr

/-- What an UPDATE returns (R107). -/
inductive Response where
  /-- `Ok(Some(n))`: a transfer just started; its total size is `n`. -/
  | okSome (n : Length)
  /-- `Ok(None)`: bytes were accepted; no new size information. -/
  | okNone
  /-- `Err(f)`: the frame was rejected. -/
  | err (f : Failure)
deriving DecidableEq, Repr

/-- What one host operation returns to the host (R178, observations). RESET returns nothing. -/
inductive Observation where
  /-- The response of an UPDATE. -/
  | response (r : Response)
  /-- The result of READY (R120). -/
  | ready (b : Bool)
  /-- The result of DATA (R121): `none` unless a message is complete. -/
  | data (bytes : Option (List Byte))
deriving DecidableEq, Repr

/-- Where the machine stops with a fault. -/
inductive Fault where
  /-- Raised by CF and by DATA when they would touch an index of `BUF` at or above `CAPACITY`, which does not exist
  (R30, R31). Only a state that breaks R17 or has `expected_total > CAPACITY` reaches it, and no run does. Safe: the
  model stops where the spec gives no meaning. Log entry 7. -/
  | noSuchBufferCell
deriving DecidableEq, Repr

/-- Where the model gives an operation no meaning. -/
inductive Refusal where
  /-- An instruction without a meaning yet. Raised by no arm of this model. Safe. -/
  | notModelled (mnemonic : String)
  /-- Raised by every operation but RESET before the first RESET after power-up (R171, U10), save an UPDATE that the
  decoder has refused already for its length (log entry 8). Safe. Log entry 5. -/
  | beforeFirstReset
  /-- Raised by UPDATE, in every frame form, for `frame_len > FRAME_CAP` (R50, R125, D4, U9). Safe. Log entry 8. -/
  | frameTooLong
  /-- Raised by the port binding when `rst` and `frame_valid` are asserted together: two operations at once
  (R173, U1). Safe. Log entry 12. -/
  | overlappingOperations
deriving DecidableEq, Repr

/-- The machine's state. -/
structure State where
  /-- `CAPACITY` and `FRAME_CAP` (R15): constants of the instance, written by nothing. -/
  config : Config
  /-- The model's own: RESET has been issued since power-up (R171, R172). Log entry 5. -/
  initialised : Bool
  /-- `state`, 2 bits (R11). -/
  state : Phase
  /-- `buf_len`, 12 bits: the number of valid bytes and the write pointer (R12). -/
  bufLen : Length
  /-- `BUF` (R12, R30): index and byte of every cell that has been written, indices strictly rising. -/
  buf : List Host.Cell
  /-- `total_valid`, 1 bit (R13). -/
  totalValid : Bool
  /-- `expected_total`, 12 bits (R13). -/
  expectedTotal : Length
  /-- `expected_sequence`, 4 bits (R14). -/
  expectedSequence : Nibble
  /-- The model's own: what the last operation returned (R24: returned once and not kept). No operation reads it.
  Log entry 3. -/
  output : Option Observation
  /-- The model's own: the operations the host has issued, oldest first (R39: taken one at a time, in issue order).
  Log entry 1. -/
  pending : List HostOp
deriving DecidableEq, Repr

/-- The instance with parameters `c` right after construction, which is RESET (R23, R171). -/
def State.construct (c : Config) : State where
  config := c
  initialised := true
  state := .idle
  bufLen := 0#12
  buf := []
  totalValid := false
  expectedTotal := 0#12
  expectedSequence := 0#4
  output := none
  pending := []

/-- The machine right after reset: R23 at the reference parameters of R6 (log entry 4). -/
def State.reset : State := State.construct Config.reference

/-- A machine after power-up and before its first RESET: the registers may hold any values, those of `s` (R171). -/
def State.poweredUp (s : State) : State := { s with initialised := false }

end Sys2Proof.Machine
end

