-- ==== Sys2Proof/Machine/Ops.lean ====
section
/-! DEFINITION. The named operations over the buffer memory and the registers: `MemRead`, `MemWrite`
(spec/20_memory.md rule R31), the Reassembly Buffer (spec/41_buffer.md), RESET's and ABORT's register writes, and a
failure's delivery with its state effect (spec/60_exceptions.md rule R150, rule R151). -/

namespace Sys2Proof.Machine

/-! ### Memory as a sparse list of cells -/

/-- The byte stored at `a`; `none` when nothing has written the cell. -/
def Memory.read (m : List Host.Cell) (a : Nat) : Option Byte :=
  match m with
  | [] => none
  | (k, v) :: rest => if k = a then some v else Memory.read rest a

/-- Store `v` at `a`, keeping the indices strictly rising. -/
def Memory.write (m : List Host.Cell) (a : Nat) (v : Byte) : List Host.Cell :=
  match m with
  | [] => [(a, v)]
  | (k, w) :: rest =>
    if a < k then (a, v) :: (k, w) :: rest
    else if a = k then (a, v) :: rest
    else (k, w) :: Memory.write rest a v

/-- Store a sequence of bytes from `a` upward, lower index first (R32). -/
def Memory.writeBytes (m : List Host.Cell) (a : Nat) (bytes : List Byte) : List Host.Cell :=
  match bytes with
  | [] => m
  | b :: rest => Memory.writeBytes (Memory.write m a b) (a + 1) rest

/-- The canonical form: indices strictly rising. An unlisted cell has no value of its own, so no listed cell can
equal what an unlisted one reads as. -/
abbrev Memory.wf (m : List Host.Cell) : Prop := m.Pairwise (fun x y => x.1 < y.1)

/-! ### `BUF` -/

/-- The cell `BUF[a]`: `none` until something writes it. -/
def State.cell (s : State) (a : Nat) : Option Byte := Memory.read s.buf a

/-- What reading `BUF[a]` gives: its byte, or a free value where nothing has written it (U11, log entry 6). -/
def State.readByte (s : State) (a : Nat) : Byte := (s.cell a).getD (Config.unwrittenByte a)

/-- The bytes `BUF[addr], ..., BUF[addr + n - 1]`. -/
def State.bytesFrom (s : State) (addr n : Nat) : List Byte := (List.range n).map fun i => s.readByte (addr + i)

/-- `MemRead(addr, n)` (R31); `none` when the run reaches past the last cell, `BUF[CAPACITY - 1]` (R30). -/
def State.memRead (s : State) (addr n : Nat) : Option (List Byte) :=
  if addr + n ≤ s.config.capacity.toNat then some (s.bytesFrom addr n) else none

/-- `MemWrite(addr, n, v)` with `n = v.length` (R31); `none` when the run reaches past the last cell (R30). -/
def State.memWrite (s : State) (addr : Nat) (v : List Byte) : Option State :=
  if addr + v.length ≤ s.config.capacity.toNat then some { s with buf := Memory.writeBytes s.buf addr v } else none

/-- The abstract view `buffer`: `BUF[0], ..., BUF[buf_len - 1]` (R8, R12). -/
def State.buffer (s : State) : List Byte := s.bytesFrom 0 s.bufLen.toNat

/-- `buf_reset()`: the write pointer goes to 0 and the cells keep their bytes (R91). -/
def State.bufReset (s : State) : State := { s with bufLen := 0#12 }

/-- `buf_append(bytes, n)` with `n = bytes.length` (R92): the overflow test on the exact sum first (D28), then the
write at `buf_len`. `none` is `Overflow`, and nothing is written. -/
def State.bufAppend (s : State) (bytes : List Byte) : Option State :=
  if s.config.capacity.toNat < s.bufLen.toNat + bytes.length then none
  else
    match s.memWrite s.bufLen.toNat bytes with
    | none => none
    | some t => some { t with bufLen := BitVec.ofNat 12 (s.bufLen.toNat + bytes.length) }

/-- `buf_slice()`: `MemRead(0, buf_len)` (R93). -/
def State.bufSlice (s : State) : Option (List Byte) := s.memRead 0 s.bufLen.toNat

/-! ### Registers -/

/-- The register writes that RESET and ABORT share (R122, R151). `BUF` is not written. -/
def State.clearRegisters (s : State) : State :=
  { s with state := .idle, bufLen := 0#12, totalValid := false, expectedTotal := 0#12, expectedSequence := 0#4 }

/-- `ABORT`: the transfer in progress is abandoned (R151). -/
def State.abort (s : State) : State := s.clearRegisters

/-- The writes that open or complete a transfer, after its bytes are in the buffer (R101, R102). -/
def State.openTransfer (s : State) (total : Length) (sequence : Nibble) (next : Phase) : State :=
  { s with totalValid := true, expectedTotal := total, expectedSequence := sequence, state := next }

/-- Present what the operation returns; `none` when it returns nothing (R24, R126). -/
def State.present (s : State) (o : Option Observation) : State := { s with output := o }

/-- Present the response of an UPDATE (R107). -/
def State.respond (s : State) (r : Response) : State := s.present (some (.response r))

/-! ### Failures: the block's exceptions -/

/-- Whether a failure raised in a given `state` performs ABORT (R150): `SequenceMismatch` always, `Overflow` in
`RECEIVING`, no other failure ever. -/
def Failure.aborts (f : Failure) (p : Phase) : Bool :=
  match f with
  | .sequenceMismatch => true
  | .overflow => decide (p = .receiving)
  | .malformedFrame => false
  | .unknownFrameType => false
  | .lengthMismatch => false
  | .tooLarge => false
  | .unexpectedFrame => false
  | .unsupported => false

/-- `raise f`: the UPDATE ends with the response `Err(f)` and the state effect R150 gives `f`. Nothing is saved and
control goes nowhere, so there is no return from a failure (R152). -/
def State.raise (s : State) (f : Failure) : State :=
  (if f.aborts s.state then s.abort else s).respond (.err f)

/-! ### What stands before an operation -/

/-- Why the model gives an UPDATE of an `n`-byte frame no meaning, if it gives it none: no RESET yet (R171), or a
frame longer than `FRAME_CAP` (R50, D4). -/
def State.updateRefusal (s : State) (n : Nat) : Option Refusal :=
  if s.initialised = false then some .beforeFirstReset
  else if s.config.frameCap < n then some .frameTooLong
  else none

end Sys2Proof.Machine
end

