-- ==== Sys2Proof/Machine/Flags.lean ====
section
/-! DEFINITION. The one status flag, `ready` (spec/10_state.md rule R16), the derived views of the registers, and the
comparison that completes a transfer. -/

namespace Sys2Proof.Machine

/-- `ready = (state = COMPLETE)`; not stored (R16). -/
def State.ready (s : State) : Bool := decide (s.state = .complete)

/-- `expected_total_opt` (R8, R13). -/
def State.expectedTotalOpt (s : State) : Option Length := if s.totalValid then some s.expectedTotal else none

/-- `state` once `held` bytes of a transfer of `total` bytes are in the buffer: `COMPLETE` when they are all there,
else `RECEIVING` (R102, R103). -/
def phaseAfter (held total : Nat) : Phase := if held = total then .complete else .receiving

/-- The 2-bit encoding of `state` (R11). -/
def Phase.code : Phase → BitVec 2
  | .idle => 0b00#2
  | .receiving => 0b01#2
  | .complete => 0b10#2

end Sys2Proof.Machine
end

