-- ==== Sys2Proof/Machine/Operands.lean ====
section
/-! DEFINITION. The Frame Classifier (spec/40_classifier.md): from the operands of a frame to a typed PCI value with
its payload, or a classifier-level failure. It reads the frame and `CAPACITY` and nothing else (R70). -/

namespace Sys2Proof.Machine

/-- The PCI: a closed set of four variants (R70). -/
inductive Pci where
  | single (L : Nibble)
  | first (totalLength : Length)
  | consecutive (SN : Nibble)
  | flowControl
deriving DecidableEq, Repr

/-- A classified frame with its payload slice, or a failure (R70). `FlowControl` carries no payload. -/
abbrev Classified := Except Failure (Pci × List Byte)

/-- Classify a Single Frame; `rest` is `frame[1 ..]`, so `frame_len - 1` is its length (R73). -/
def classifySingle (L : Nibble) (rest : List Byte) : Classified :=
  if rest.length < L.toNat then .error .lengthMismatch else .ok (.single L, rest.take L.toNat)

/-- Classify a First Frame of two or more bytes (R74). -/
def classifyFirst (capacity total : Length) (payload : List Byte) : Classified :=
  if capacity.toNat < total.toNat then .error .tooLarge else .ok (.first total, payload)

/-- A First Frame of one byte: its second header byte does not exist (R74). -/
def classifyShortFirst : Classified := .error .malformedFrame

/-- Classify a Consecutive Frame: always succeeds (R75). -/
def classifyConsecutive (sn : Nibble) (payload : List Byte) : Classified := .ok (.consecutive sn, payload)

/-- Classify a Flow-Control frame: nothing but the type nibble is examined (R76). -/
def classifyFlowControl : Classified := .ok (.flowControl, [])

/-- A reserved type (R77). -/
def classifyReserved : Classified := .error .unknownFrameType

/-- The empty frame (R71). -/
def classifyEmpty : Classified := .error .malformedFrame

/-- `classify(frame, frame_len, CAPACITY)`, the whole function (R70). -/
def classify (capacity : Length) (frame : List Byte) : Classified :=
  match frame with
  | [] => classifyEmpty
  | b0 :: rest =>
    match (typeNibble b0).toNat with
    | 0 => classifySingle (lowNibble b0) rest
    | 1 =>
      match rest with
      | [] => classifyShortFirst
      | b1 :: payload => classifyFirst capacity (joinLength (lowNibble b0) b1) payload
    | 2 => classifyConsecutive (lowNibble b0) rest
    | 3 => classifyFlowControl
    | _ => classifyReserved

/-- `expected_total - buf_len`, the bytes still missing (R103). It is at least 1 wherever a run reads it (R18); in a
state that breaks R18 the difference of naturals is 0 (log entry 7). -/
def State.remaining (s : State) : Nat := s.expectedTotal.toNat - s.bufLen.toNat

/-- The bytes of a Consecutive Frame that are stored: the first `min(avail, remaining)` (R55, R103, D10). -/
def State.wanted (s : State) (payload : List Byte) : List Byte := payload.take (min payload.length s.remaining)

end Sys2Proof.Machine
end

