-- ==== Sys2Proof/Machine/Transport.lean ====
section
/-! DEFINITION. The Transport Decoder (spec/42_update_frames.md): what UPDATE does with a classified frame. Every
check is made on the frame and the state before anything is written (R38, R109). -/

namespace Sys2Proof.Machine

/-- R101 after the classifier: reset the buffer, append the payload, complete. `buf_append`'s test on the emptied
buffer is `L > CAPACITY`. -/
def State.acceptSingle (s : State) (L : Nibble) (payload : List Byte) : Host.Outcome State Fault Refusal :=
  match s.bufReset.bufAppend payload with
  | none => .next (s.raise .overflow)
  | some t => .next ((t.openTransfer (L.setWidth 12) 0#4 .complete).respond (.okSome (L.setWidth 12)))

/-- R102 after the classifier: the chunk must not exceed the declared total; then reset the buffer, append the
chunk, and receive, or complete at once. -/
def State.acceptFirst (s : State) (total : Length) (chunk : List Byte) : Host.Outcome State Fault Refusal :=
  if total.toNat < chunk.length then .next (s.raise .overflow)
  else
    match s.bufReset.bufAppend chunk with
    | none => .next (s.raise .overflow)
    | some t => .next ((t.openTransfer total 1#4 (phaseAfter chunk.length total.toNat)).respond (.okSome total))

/-- R103 after the classifier: the state test, the sequence test, then append what is still wanted. -/
def State.acceptConsecutive (s : State) (sn : Nibble) (payload : List Byte) : Host.Outcome State Fault Refusal :=
  if s.state ≠ .receiving then .next (s.raise .unexpectedFrame)
  else if sn ≠ s.expectedSequence then .next (s.raise .sequenceMismatch)
  else
    match s.bufAppend (s.wanted payload) with
    | none => .fault .noSuchBufferCell
    | some t =>
      .next ({ t with
        expectedSequence := s.expectedSequence + 1#4
        state := phaseAfter (s.bufLen.toNat + (s.wanted payload).length) s.expectedTotal.toNat }.respond .okNone)

/-- R104: `Unsupported` in every state. -/
def State.acceptFlowControl (s : State) : Host.Outcome State Fault Refusal := .next (s.raise .unsupported)

/-- UPDATE from the classifier's result on (R100): a failure is propagated unchanged, a PCI goes to its rule. -/
def State.transport (s : State) (r : Classified) : Host.Outcome State Fault Refusal :=
  match r with
  | .error f => .next (s.raise f)
  | .ok (.single L, payload) => s.acceptSingle L payload
  | .ok (.first total, chunk) => s.acceptFirst total chunk
  | .ok (.consecutive sn, payload) => s.acceptConsecutive sn payload
  | .ok (.flowControl, _) => s.acceptFlowControl

/-- One whole UPDATE of an `n`-byte frame with classifier result `r` (R100), where the model gives it a meaning. -/
def State.updateWith (s : State) (n : Nat) (r : Classified) : Host.Outcome State Fault Refusal :=
  match s.updateRefusal n with
  | some why => .refused why
  | none => s.transport r

end Sys2Proof.Machine
end

