-- ==== Sys2Proof/Machine/Frames.lean ====
section
/-! DEFINITION. The meanings of the four frame types (spec/42_update_frames.md rule R101 to rule R104). -/

namespace Sys2Proof.Machine

/-- SF, Single Frame (R73, R101). -/
def execSf (L : Nibble) (rest : List Byte) (s : State) : Host.Outcome State Fault Refusal :=
  s.updateWith (rest.length + 1) (classifySingle L rest)

/-- FF, First Frame (R74, R102). -/
def execFf (total : Length) (payload : List Byte) (s : State) : Host.Outcome State Fault Refusal :=
  s.updateWith (payload.length + 2) (classifyFirst s.config.capacity total payload)

/-- CF, Consecutive Frame (R75, R103). -/
def execCf (sn : Nibble) (payload : List Byte) (s : State) : Host.Outcome State Fault Refusal :=
  s.updateWith (payload.length + 1) (classifyConsecutive sn payload)

/-- FC, Flow-Control Frame (R76, R104): recognised and answered `Unsupported`; `lo` is not examined. -/
def execFc (_lo : Nibble) (rest : List Byte) (s : State) : Host.Outcome State Fault Refusal :=
  s.updateWith (rest.length + 1) classifyFlowControl

end Sys2Proof.Machine
end

