-- ==== Sys2Proof/Machine/HostOps.lean ====
section
/-! DEFINITION. The meanings of the four host operations (spec/43_host_ops.md rule R120 to rule R123,
spec/42_update_frames.md rule R100). -/

namespace Sys2Proof.Machine

/-- RESET (R122): allowed in any state, before the first RESET too (R171). It returns nothing (R126). -/
def execReset (s : State) : Host.Outcome State Fault Refusal :=
  .next ({ s.clearRegisters with initialised := true }.present none)

/-- UPDATE on a raw frame (R100): classify it, then one rule per frame type. -/
def execUpdate (frame : List Byte) (s : State) : Host.Outcome State Fault Refusal :=
  s.updateWith frame.length (classify s.config.capacity frame)

/-- READY (R120): returns `state = COMPLETE`, writes nothing. -/
def execReady (s : State) : Host.Outcome State Fault Refusal :=
  if s.initialised = false then .refused .beforeFirstReset
  else .next (s.present (some (.ready s.ready)))

/-- DATA (R121): the whole message when `state = COMPLETE`, else `None`; writes nothing. -/
def execData (s : State) : Host.Outcome State Fault Refusal :=
  if s.initialised = false then .refused .beforeFirstReset
  else if s.state = .complete then
    match s.bufSlice with
    | none => .fault .noSuchBufferCell
    | some bytes => .next (s.present (some (.data (some bytes))))
  else .next (s.present (some (.data none)))

end Sys2Proof.Machine
end

