-- ==== Sys2Proof/Machine/Reserved.lean ====
section
/-! DEFINITION. The meanings of the twelve reserved frame types (spec/42_update_frames.md rule R105,
spec/40_classifier.md rule R77): each is answered `UnknownFrameType` and changes no register, whatever the low nibble
and the later bytes hold. -/

namespace Sys2Proof.Machine

/-- RSV4, reserved type 0x4 (R77, R105). -/
def execRsv4 (_lo : Nibble) (rest : List Byte) (s : State) : Host.Outcome State Fault Refusal :=
  s.updateWith (rest.length + 1) classifyReserved

/-- RSV5, reserved type 0x5 (R77, R105). -/
def execRsv5 (_lo : Nibble) (rest : List Byte) (s : State) : Host.Outcome State Fault Refusal :=
  s.updateWith (rest.length + 1) classifyReserved

/-- RSV6, reserved type 0x6 (R77, R105). -/
def execRsv6 (_lo : Nibble) (rest : List Byte) (s : State) : Host.Outcome State Fault Refusal :=
  s.updateWith (rest.length + 1) classifyReserved

/-- RSV7, reserved type 0x7 (R77, R105). -/
def execRsv7 (_lo : Nibble) (rest : List Byte) (s : State) : Host.Outcome State Fault Refusal :=
  s.updateWith (rest.length + 1) classifyReserved

/-- RSV8, reserved type 0x8 (R77, R105). -/
def execRsv8 (_lo : Nibble) (rest : List Byte) (s : State) : Host.Outcome State Fault Refusal :=
  s.updateWith (rest.length + 1) classifyReserved

/-- RSV9, reserved type 0x9 (R77, R105). -/
def execRsv9 (_lo : Nibble) (rest : List Byte) (s : State) : Host.Outcome State Fault Refusal :=
  s.updateWith (rest.length + 1) classifyReserved

/-- RSVA, reserved type 0xA (R77, R105). -/
def execRsvA (_lo : Nibble) (rest : List Byte) (s : State) : Host.Outcome State Fault Refusal :=
  s.updateWith (rest.length + 1) classifyReserved

/-- RSVB, reserved type 0xB (R77, R105). -/
def execRsvB (_lo : Nibble) (rest : List Byte) (s : State) : Host.Outcome State Fault Refusal :=
  s.updateWith (rest.length + 1) classifyReserved

/-- RSVC, reserved type 0xC (R77, R105). -/
def execRsvC (_lo : Nibble) (rest : List Byte) (s : State) : Host.Outcome State Fault Refusal :=
  s.updateWith (rest.length + 1) classifyReserved

/-- RSVD, reserved type 0xD (R77, R105). -/
def execRsvD (_lo : Nibble) (rest : List Byte) (s : State) : Host.Outcome State Fault Refusal :=
  s.updateWith (rest.length + 1) classifyReserved

/-- RSVE, reserved type 0xE (R77, R105). -/
def execRsvE (_lo : Nibble) (rest : List Byte) (s : State) : Host.Outcome State Fault Refusal :=
  s.updateWith (rest.length + 1) classifyReserved

/-- RSVF, reserved type 0xF (R77, R105). -/
def execRsvF (_lo : Nibble) (rest : List Byte) (s : State) : Host.Outcome State Fault Refusal :=
  s.updateWith (rest.length + 1) classifyReserved

end Sys2Proof.Machine
end

