-- ==== Sys2Proof/Machine/Dispatch.lean ====
section
/-! DEFINITION. The dispatch: one arm per constructor of `Instr`, each one call of that instruction's meaning. -/

namespace Sys2Proof.Machine

/-- What one instruction does to a state. -/
def exec (i : Instr) (s : State) : Host.Outcome State Fault Refusal :=
  match i with
  | .sf L rest => Sys2Proof.Machine.execSf L rest s
  | .ff total payload => Sys2Proof.Machine.execFf total payload s
  | .cf sn payload => Sys2Proof.Machine.execCf sn payload s
  | .fc lo rest => Sys2Proof.Machine.execFc lo rest s
  | .rsv4 lo rest => Sys2Proof.Machine.execRsv4 lo rest s
  | .rsv5 lo rest => Sys2Proof.Machine.execRsv5 lo rest s
  | .rsv6 lo rest => Sys2Proof.Machine.execRsv6 lo rest s
  | .rsv7 lo rest => Sys2Proof.Machine.execRsv7 lo rest s
  | .rsv8 lo rest => Sys2Proof.Machine.execRsv8 lo rest s
  | .rsv9 lo rest => Sys2Proof.Machine.execRsv9 lo rest s
  | .rsvA lo rest => Sys2Proof.Machine.execRsvA lo rest s
  | .rsvB lo rest => Sys2Proof.Machine.execRsvB lo rest s
  | .rsvC lo rest => Sys2Proof.Machine.execRsvC lo rest s
  | .rsvD lo rest => Sys2Proof.Machine.execRsvD lo rest s
  | .rsvE lo rest => Sys2Proof.Machine.execRsvE lo rest s
  | .rsvF lo rest => Sys2Proof.Machine.execRsvF lo rest s
  | .reset => Sys2Proof.Machine.execReset s
  | .update frame => Sys2Proof.Machine.execUpdate frame s
  | .ready => Sys2Proof.Machine.execReady s
  | .data => Sys2Proof.Machine.execData s

end Sys2Proof.Machine
end

