-- ==== Sys2Proof/Machine/Step.lean ====
section
/-! DEFINITION. One step: the block takes the oldest operation the host has issued and carries it out whole
(spec/00_scope.md rule R7, spec/20_memory.md rule R39). There is no program counter and no fetch from memory
(spec/10_state.md rule R22); the queue of issued operations stands where another machine's program would. -/

namespace Sys2Proof.Machine

/-- One step. With no operation issued the block does nothing and presents nothing: it never ends a run and leaves no
state on its own (R176, R178; log entry 2).

DESIGN CHOICE (log entry 8): the decoder's length check stands first, so a frame longer than `FRAME_CAP` is refused as
`frameTooLong` before the first RESET as well, where the spec gives the UPDATE no meaning for two reasons. -/
def step (s : State) : Host.Outcome State Fault Refusal :=
  match s.pending with
  | [] => .next (s.present none)
  | op :: rest =>
    match decode s.config op with
    | .error .frameTooLong => .refused .frameTooLong
    | .ok i => exec i { s with pending := rest }

/-- `s` with the frame of an opcode-table row issued as the host's next operation, ahead of any that wait (log entries 1, 13
and 19). -/
def State.withFetchWord (s : State) (nbits w : Nat) : State :=
  { s with pending := .update (tableFrame s.config.frameCap nbits w) :: s.pending }

end Sys2Proof.Machine
end

