-- ==== Sys2Proof/Machine/Ports.lean ====
section
/-! DEFINITION. The port binding (spec/43_host_ops.md rule R124 to rule R127): the input ports as operations, and the
output ports as functions of the state. Transactions are atomic, so there is no clock here, and `frame_busy` reads 0
between two of them (R7, R177; log entry 14). -/

namespace Sys2Proof.Machine

/-! ### Encodings -/

/-- The failure codes of R140. -/
def Failure.code : Failure → BitVec 4
  | .malformedFrame => 1#4
  | .unknownFrameType => 2#4
  | .lengthMismatch => 3#4
  | .tooLarge => 4#4
  | .overflow => 5#4
  | .unexpectedFrame => 6#4
  | .sequenceMismatch => 7#4
  | .unsupported => 8#4

/-- `resp_kind` (R124). -/
def Response.kind : Response → BitVec 2
  | .okNone => 0b00#2
  | .okSome _ => 0b01#2
  | .err _ => 0b10#2

/-- `resp_size`: the announced size, else 0 (R124). -/
def Response.size : Response → Length
  | .okNone => 0#12
  | .okSome n => n
  | .err _ => 0#12

/-- `resp_err`: the failure code, else 0 (R124). -/
def Response.errCode : Response → BitVec 4
  | .okNone => 0#4
  | .okSome _ => 0#4
  | .err f => f.code

/-- The response the last operation presented, if it was an UPDATE (R126). -/
def State.response? (s : State) : Option Response :=
  match s.output with
  | some (.response r) => some r
  | some (.ready _) => none
  | some (.data _) => none
  | none => none

/-! ### Output ports -/

/-- `data_valid = (state = COMPLETE)` (R124). -/
def State.dataValid (s : State) : Bool := decide (s.state = .complete)

/-- `data_len`: `buf_len` when valid, else 0 (R124). -/
def State.dataLen (s : State) : Length := if s.dataValid then s.bufLen else 0#12

/-- `rd_byte` at `rd_idx`: `BUF[rd_idx]` when valid and below `buf_len`, else 0x00 (R124, R127). -/
def State.rdByte (s : State) (rdIdx : Length) : Byte :=
  if s.dataValid ∧ rdIdx.toNat < s.bufLen.toNat then s.readByte rdIdx.toNat else 0x00#8

/-- The output ports of R124. -/
structure PortsOut where
  frameBusy : Bool
  respValid : Bool
  respKind : BitVec 2
  respSize : Length
  respErr : BitVec 4
  ready : Bool
  dataValid : Bool
  dataLen : Length
  rdByte : Byte
deriving DecidableEq, Repr

/-- The output ports between two operations, with `rd_idx` driven by the host. When the last operation was no UPDATE,
`resp_valid` is 0 and the other response ports carry nothing; they are given as 0 (log entry 3).

DESIGN CHOICE (log entry 18): before the first RESET, where the spec gives READY and DATA no meaning (R171, U10) and
the operations are refused, the ports still have levels, the same functions of whatever values the registers hold. -/
def State.portsOut (s : State) (rdIdx : Length) : PortsOut where
  frameBusy := false
  respValid := s.response?.isSome
  respKind := (s.response?.map Response.kind).getD 0#2
  respSize := (s.response?.map Response.size).getD 0#12
  respErr := (s.response?.map Response.errCode).getD 0#4
  ready := s.ready
  dataValid := s.dataValid
  dataLen := s.dataLen
  rdByte := s.rdByte rdIdx

/-! ### Input ports -/

/-- The width of the port `frame_len` in bits, `ceil(log2(FRAME_CAP + 1))` (R124). -/
def frameLenWidth (frameCap : Nat) : Nat := Nat.clog 2 (frameCap + 1)

/-- The input ports of R124 that request an operation. -/
structure PortsIn where
  rst : Bool
  frameValid : Bool
  /-- `frame_len`, an unsigned number of `frameLenWidth` bits (`PortsIn.wf`). -/
  frameLen : Nat
  /-- The `FRAME_CAP` byte lanes. -/
  frameData : List Byte
deriving DecidableEq, Repr

/-- What the ports of an instance can carry (R124): exactly `FRAME_CAP` lanes, and a `frame_len` of the port's width. -/
abbrev PortsIn.wf (p : PortsIn) (c : Config) : Prop :=
  p.frameData.length = c.frameCap ∧ p.frameLen < 2 ^ frameLenWidth c.frameCap

/-- The operation the input ports request, if any. Lanes at `frame_len` and above are ignored (R125); `frame_len`
above `FRAME_CAP`, where the port's width can carry one, is outside the contract (D4), and so are two requests at
once (R173). A frame that is too long is refused for its length before the first RESET too (log entry 8). -/
def PortsIn.operation (p : PortsIn) (c : Config) : Except Refusal (Option HostOp) :=
  match p.rst, p.frameValid with
  | true, true => .error .overlappingOperations
  | true, false => .ok (some .reset)
  | false, true =>
    if c.frameCap < p.frameLen then .error .frameTooLong
    else .ok (some (.update (p.frameData.take p.frameLen)))
  | false, false => .ok none

/-- One transaction at the ports: one request is one operation (R125), carried out at once.

DESIGN CHOICE (log entry 19): the ports and the queue `pending` are two ways to issue operations, and the spec, which
has one order of issue (R39), says nothing of a request while operations wait in the queue. The requested operation is
carried out ahead of them and they stay waiting; with no request they stay waiting as well. -/
def portStep (p : PortsIn) (s : State) : Host.Outcome State Fault Refusal :=
  match p.operation s.config with
  | .error why => .refused why
  | .ok none => .next (s.present none)
  | .ok (some op) => step { s with pending := op :: s.pending }

end Sys2Proof.Machine
end

