-- ==== Sys2Proof/Machine/Run.lean ====
section
/-! DEFINITION. Runs (spec/70_reset_and_hazards.md rule R178): RESET, then a finite sequence of host operations; the
end state and the ordered list of what the operations returned. -/

namespace Sys2Proof.Machine

/-- Carry out a list of operations one after another, collecting what each returns after `seen`. A fault or refusal
ends it. DESIGN CHOICE (log entry 19): the list is the whole order of issue (R178), and operations that waited in
`pending` are not carried out. -/
def runOps (ops : List HostOp) (seen : List Observation) (s : State) :
    Host.Outcome (State × List Observation) Fault Refusal :=
  match ops with
  | [] => .next (s, seen)
  | op :: rest =>
    match step { s with pending := [op] } with
    | .next t => runOps rest (seen ++ t.output.toList) t
    | .fault why => .fault why
    | .refused why => .refused why

/-- A run of an instance with parameters `c` (R178). -/
def run (c : Config) (ops : List HostOp) : Host.Outcome (State × List Observation) Fault Refusal :=
  runOps ops [] (State.construct c)

/-- The Consecutive Frames that carry `chunks`, their nibbles counting up from `sn` modulo 16 (R14, R55). -/
def consecutiveOps (sn : Nibble) (chunks : List (List Byte)) : List HostOp :=
  match chunks with
  | [] => []
  | c :: rest => encode (.cf sn c) :: consecutiveOps (sn + 1#4) rest

/-- The frames of one segmented transfer: a First Frame declaring `total` with the initial chunk, then one
Consecutive Frame a chunk, the first with sequence nibble 1 (R9, R14). -/
def transferOps (total : Length) (initial : List Byte) (chunks : List (List Byte)) : List HostOp :=
  encode (.ff total initial) :: consecutiveOps 1#4 chunks

end Sys2Proof.Machine
end

