-- ==== Sys2Proof/Machine/WriteControl.lean ====
section
/-! DEFINITION. Write control and overflow detection of the Reassembly Buffer, as functions of the frame and the state
before an UPDATE (spec/41_buffer.md rule R94, rule R95). The meanings do not call them: the spec gives them as a second
description of the same buffer write, and the obligations say that the two agree. -/

namespace Sys2Proof.Machine

/-- The four derived quantities of R94. -/
structure WriteControl where
  /-- Reset the write pointer first. -/
  clr : Bool
  /-- Index in the frame of the first byte to store. -/
  srcOff : Nat
  /-- Number of bytes to store. -/
  nWr : Nat
  /-- The write happens. -/
  we : Bool
deriving DecidableEq, Repr

/-- A frame that has no column in R94: the empty frame, FC and the reserved types. `we = 0` is R94's. DESIGN CHOICE
(log entry 17): `clr`, `src_off` and `n_wr`, which decide nothing while `we = 0`, are given as 0. -/
def WriteControl.idle : WriteControl := { clr := false, srcOff := 0, nWr := 0, we := false }

/-- `we`: 1 exactly when the UPDATE succeeds (R94), written here as the frame type's own conditions.

DESIGN CHOICE (log entry 17): the same conditions give `we` where the spec gives the UPDATE no meaning (before the first
RESET, or `frame_len > FRAME_CAP`) and where it faults on registers no run reaches (log entry 7), so `we` can be 1 there
although `exec` answers no next state. -/
def writeEnable (s : State) (frame : List Byte) : Bool :=
  match classify s.config.capacity frame with
  | .error _ => false
  | .ok (.single L, _) => decide (L.toNat ≤ s.config.capacity.toNat)
  | .ok (.first total, chunk) => decide (chunk.length ≤ total.toNat)
  | .ok (.consecutive sn, _) => decide (s.state = .receiving ∧ sn = s.expectedSequence)
  | .ok (.flowControl, _) => false

/-- R94's table: the type of the frame selects the column, whether or not the frame is then accepted, and only `we`
depends on that. R110 evaluates the differences only where they are not negative: DESIGN CHOICE (log entry 17), `n_wr`
of a First Frame of one byte is given as 0, and that of a Consecutive Frame outside `RECEIVING` by the column's
expression in naturals; and the columns are computed for an UPDATE without a meaning too (`writeEnable`). -/
def writeControl (s : State) (frame : List Byte) : WriteControl :=
  match frame with
  | [] => WriteControl.idle
  | b0 :: rest =>
    match (typeNibble b0).toNat with
    | 0x0 => { clr := true, srcOff := 1, nWr := (lowNibble b0).toNat, we := writeEnable s (b0 :: rest) }
    | 0x1 => { clr := true, srcOff := 2, nWr := rest.length - 1, we := writeEnable s (b0 :: rest) }
    | 0x2 =>
      { clr := false, srcOff := 1, nWr := min rest.length s.remaining, we := writeEnable s (b0 :: rest) }
    | _ => WriteControl.idle

/-- `base`: where the first byte goes (R94). -/
def WriteControl.base (w : WriteControl) (s : State) : Nat := if w.clr then 0 else s.bufLen.toNat

/-- The cases in which the block raises `Overflow` (R95): (a) a Single Frame with `L > CAPACITY`; (b) a First Frame
whose chunk exceeds its `total_length`. DESIGN CHOICE (log entry 17): an UPDATE without a meaning is judged by the same
conditions. -/
def overflowDetected (s : State) (frame : List Byte) : Bool :=
  match classify s.config.capacity frame with
  | .ok (.single L, _) => decide (s.config.capacity.toNat < L.toNat)
  | .ok (.first total, _) => decide (total.toNat < frame.length - 2)
  | .ok (.consecutive _, _) => false
  | .ok (.flowControl, _) => false
  | .error _ => false

end Sys2Proof.Machine
end

