-- ==== Sys2Proof/Safety.lean ====
section
/-! DEFINITION. The terms the statements use: the invariants of spec/10_state.md rule R17 to rule R20, what it means
that two states cannot be told apart, and the transition table of spec/42_update_frames.md rule R108. -/

namespace Sys2Proof.Machine

/-- The registers of an instance after its first RESET keep R17 to R20 and the register ranges of R10's table. -/
structure State.RegsInv (s : State) : Prop where
  /-- R17. -/
  bufLen_le : s.bufLen.toNat ≤ s.config.capacity.toNat
  /-- R10's table: `expected_total` is in `0..CAPACITY`. -/
  total_le : s.expectedTotal.toNat ≤ s.config.capacity.toNat
  /-- R13, D7: `expected_total` is 0 while `total_valid` is 0. -/
  total_zero : s.totalValid = false → s.expectedTotal = 0#12
  /-- R18. -/
  receiving : s.state = .receiving → s.totalValid = true ∧ s.bufLen.toNat < s.expectedTotal.toNat
  /-- R19. -/
  complete : s.state = .complete ↔ s.totalValid = true ∧ s.bufLen = s.expectedTotal
  /-- R20: `IDLE` is one single value of the registers. -/
  idle : s.state = .idle →
    s.totalValid = false ∧ s.bufLen = 0#12 ∧ s.expectedTotal = 0#12 ∧ s.expectedSequence = 0#4
  /-- Every byte of `buffer` has been written. -/
  written : ∀ a, a < s.bufLen.toNat → (s.cell a).isSome

/-- The invariant of the machine: memory is in canonical form and inside the address space, and after the first RESET
the registers keep theirs. -/
structure State.Inv (s : State) : Prop where
  /-- `FRAME_CAP >= 1` (R5). -/
  config_wf : s.config.wf
  /-- The canonical form of memory. -/
  buf_wf : Memory.wf s.buf
  /-- R30: `BUF` has the indices `0 .. CAPACITY - 1` and no others. -/
  buf_inside : ∀ c ∈ s.buf, c.1 < s.config.capacity.toNat
  /-- R171: before the first RESET the registers may hold any value. -/
  regs : s.initialised = true → s.RegsInv

/-- Everything but `BUF` is the same, and so is every cell of `BUF` below `buf_len`: the states differ at most in
cells that are not architectural (R12). -/
structure SameArchitectural (s t : State) : Prop where
  rest : s = { t with buf := s.buf }
  cells : ∀ a, a < s.bufLen.toNat → s.cell a = t.cell a

/-- The registers of R10 have their reset values (R23). -/
structure IdleRegisters (t : State) : Prop where
  state : t.state = .idle
  bufLen : t.bufLen = 0#12
  totalValid : t.totalValid = false
  expectedTotal : t.expectedTotal = 0#12
  expectedSequence : t.expectedSequence = 0#4

/-- What no operation but RESET ever changes: the parameters, the issued operations, and that RESET has been
issued. -/
structure SameSurroundings (s t : State) : Prop where
  config : t.config = s.config
  initialised : t.initialised = s.initialised
  pending : t.pending = s.pending

/-- The transition table of R108 for one frame: the next `state` and the response, with the frame's fields read as
numbers (`type = frame[0] / 16`, `lo = frame[0] mod 16`, `total_length = lo * 256 + frame[1]`; R8, R110) and the rows
in the priority order of R149. It is written from the table, not from the meanings. -/
def transitionTable (s : State) (frame : List Byte) : Phase × Response :=
  match frame with
  | [] => (s.state, .err .malformedFrame)
  | b0 :: rest =>
    let type := b0.toNat / 16
    let lo := b0.toNat % 16
    let capacity := s.config.capacity.toNat
    let aborted := if s.state = .receiving then .idle else s.state
    if 4 ≤ type then (s.state, .err .unknownFrameType)
    else if type = 3 then (s.state, .err .unsupported)
    else if type = 0 then
      if rest.length < lo then (s.state, .err .lengthMismatch)
      else if capacity < lo then (aborted, .err .overflow)
      else (.complete, .okSome (BitVec.ofNat 12 lo))
    else if type = 1 then
      match rest with
      | [] => (s.state, .err .malformedFrame)
      | b1 :: chunk =>
        let total := lo * 256 + b1.toNat
        if capacity < total then (s.state, .err .tooLarge)
        else if total < chunk.length then (aborted, .err .overflow)
        else if chunk.length = total then (.complete, .okSome (BitVec.ofNat 12 total))
        else (.receiving, .okSome (BitVec.ofNat 12 total))
    else if s.state ≠ .receiving then (s.state, .err .unexpectedFrame)
    else if lo ≠ s.expectedSequence.toNat then (.idle, .err .sequenceMismatch)
    else if s.bufLen.toNat + min rest.length (s.expectedTotal.toNat - s.bufLen.toNat) = s.expectedTotal.toNat then
      (.complete, .okNone)
    else (.receiving, .okNone)

end Sys2Proof.Machine
end

