-- ==== Sys2Proof/Certificates/Slice0/Obligations.lean ====
section
/-! DEFINITION. The statements for the provers. Each docstring names the rule of spec/ it formalises. A statement that
rests on one of the spec's own decisions (D<n>, spec/92_eei_decisions.md; log entry 9) or on a choice of the model (log
entry) says so and is derived, not stated. -/

open Sys2Proof Sys2Proof.Machine

/-! ### Reset -/

/-- R170's reset state: the registers of a constructed instance, for every choice of the parameters (the values of
`expected_total` and `expected_sequence` are decisions D7, D8, and that RESET is construction D26; log entries 5, 9).
The cells of `BUF` are unspecified (they hold the free value) and unobservable (whatever they hold, the ports and DATA
show nothing of them). -/
def Obligations.ConstructionLeavesEmptyIdle : Prop :=
  ∀ c : Config,
    let s := State.construct c
    IdleRegisters s ∧ s.ready = false ∧ s.expectedTotalOpt = none ∧ s.config = c ∧ s.initialised = true ∧
      (∀ a, s.cell a = none ∧ s.readByte a = Config.unwrittenByte a) ∧
      ∀ cells : List Host.Cell,
        exec .data { s with buf := cells } = .next { s with buf := cells, output := some (.data none) } ∧
        ∀ idx, State.portsOut { s with buf := cells } idx = s.portsOut idx

/-- R122's RESET, which is decision D26, with register values of D7 and D8 (log entries 5, 9): in any state, before the
first RESET too, it puts every register at its reset value, does not write `BUF`, keeps the parameters and returns
nothing. -/
def Obligations.ResetClearsEveryRegister : Prop :=
  ∀ s : State, ∃ t, exec .reset s = .next t ∧ IdleRegisters t ∧ t.ready = false ∧ t.initialised = true ∧
    t.config = s.config ∧ t.pending = s.pending ∧ t.output = none ∧ ∀ a, t.cell a = s.cell a

/-- R171's power-up, which is decision D26 (log entry 5): before the first RESET every register may hold any value,
and only RESET has meaning. -/
def Obligations.OnlyResetHasMeaningBeforeFirstReset : Prop :=
  ∀ (s : State) (i : Instr),
    (i ≠ .reset → exec i s.poweredUp = .refused .beforeFirstReset) ∧
    (i = .reset → ∃ t, exec i s.poweredUp = .next t ∧ t.initialised = true ∧ IdleRegisters t)

/-! ### One rule per frame type -/

/-- The failures of R143, R144 and R146: a Single Frame that declares more than it carries (and no other) is answered
`LengthMismatch`, a First Frame that declares more than `CAPACITY` is answered `TooLarge`, a Consecutive Frame outside
`RECEIVING` is answered `UnexpectedFrame`; each changes nothing else. That `L = 0` is no `LengthMismatch` is decision
D9, and that the first two keep a transfer in `RECEIVING` is decision D11 (log entry 9). -/
def Obligations.RejectedFramesChangeNothing : Prop :=
  ∀ (s : State) (rest : List Byte), s.initialised = true → rest.length + 1 ≤ s.config.frameCap →
    (∀ L : Nibble, rest.length < L.toNat →
      exec (.sf L rest) s = .next { s with output := some (.response (.err .lengthMismatch)) }) ∧
    (∀ (L : Nibble) (t : State), L.toNat ≤ rest.length → exec (.sf L rest) s = .next t →
      t.output ≠ some (.response (.err .lengthMismatch))) ∧
    (∀ total : Length, rest.length + 2 ≤ s.config.frameCap → s.config.capacity.toNat < total.toNat →
      exec (.ff total rest) s = .next { s with output := some (.response (.err .tooLarge)) }) ∧
    (∀ sn : Nibble, s.state ≠ .receiving →
      exec (.cf sn rest) s = .next { s with output := some (.response (.err .unexpectedFrame)) })

/-- The Single Frame of R101 that carries what it declares, with its frame: the value of `expected_sequence`, `L = 0`
and what a rejected frame keeps are decisions D8, D9, D12 (log entry 9). The Single Frame that declares more is in
`RejectedFramesChangeNothing`. -/
def Obligations.SingleFrameEffect : Prop :=
  ∀ (L : Nibble) (rest : List Byte) (s : State), s.initialised = true → rest.length + 1 ≤ s.config.frameCap →
    (L.toNat ≤ rest.length → s.config.capacity.toNat < L.toNat → s.state ≠ .receiving →
      exec (.sf L rest) s = .next { s with output := some (.response (.err .overflow)) }) ∧
    (L.toNat ≤ rest.length → s.config.capacity.toNat < L.toNat → s.state = .receiving →
      exec (.sf L rest) s = .next { s with
        state := .idle, bufLen := 0#12, totalValid := false, expectedTotal := 0#12, expectedSequence := 0#4,
        output := some (.response (.err .overflow)) }) ∧
    (L.toNat ≤ rest.length → L.toNat ≤ s.config.capacity.toNat →
      ∃ t, exec (.sf L rest) s = .next t ∧
        t.state = .complete ∧ t.ready = true ∧ t.bufLen.toNat = L.toNat ∧ t.totalValid = true ∧
        t.expectedTotal.toNat = L.toNat ∧ t.expectedSequence = 0#4 ∧
        t.output = some (.response (.okSome (L.setWidth 12))) ∧
        t.buffer = rest.take L.toNat ∧ (∀ i, i < L.toNat → t.cell i = rest[i]?) ∧
        (∀ a, L.toNat ≤ a → t.cell a = s.cell a) ∧ SameSurroundings s t)

/-- The First Frame of R102 that declares at most `CAPACITY`, with its frame: ABORT's register values and what a
rejected frame keeps are decisions D7, D8, D12 (log entry 9). The First Frame that declares more is in
`RejectedFramesChangeNothing`, the First Frame of one byte in `MalformedFramesChangeNothing`. -/
def Obligations.FirstFrameEffect : Prop :=
  ∀ (total : Length) (chunk : List Byte) (s : State), s.initialised = true → chunk.length + 2 ≤ s.config.frameCap →
    (total.toNat ≤ s.config.capacity.toNat → total.toNat < chunk.length → s.state ≠ .receiving →
      exec (.ff total chunk) s = .next { s with output := some (.response (.err .overflow)) }) ∧
    (total.toNat ≤ s.config.capacity.toNat → total.toNat < chunk.length → s.state = .receiving →
      exec (.ff total chunk) s = .next { s with
        state := .idle, bufLen := 0#12, totalValid := false, expectedTotal := 0#12, expectedSequence := 0#4,
        output := some (.response (.err .overflow)) }) ∧
    (total.toNat ≤ s.config.capacity.toNat → chunk.length ≤ total.toNat →
      ∃ t, exec (.ff total chunk) s = .next t ∧
        t.state = (if chunk.length = total.toNat then .complete else .receiving) ∧
        t.ready = decide (chunk.length = total.toNat) ∧ t.bufLen.toNat = chunk.length ∧ t.totalValid = true ∧
        t.expectedTotal = total ∧ t.expectedSequence = 1#4 ∧ t.output = some (.response (.okSome total)) ∧
        t.buffer = chunk ∧ (∀ i, i < chunk.length → t.cell i = chunk[i]?) ∧
        (∀ a, chunk.length ≤ a → t.cell a = s.cell a) ∧ SameSurroundings s t)

/-- The Consecutive Frame of R103 in `RECEIVING`, with its frame: truncation and ABORT's register values are decisions
D10, D7, D8 (log entry 9). The last clause's premise says that the stored bytes are inside `BUF`; R17 and R18 give it
in every state a run reaches. Outside `RECEIVING` the frame is in `RejectedFramesChangeNothing`. -/
def Obligations.ConsecutiveFrameEffect : Prop :=
  ∀ (sn : Nibble) (payload : List Byte) (s : State), s.initialised = true →
    payload.length + 1 ≤ s.config.frameCap →
    (s.state = .receiving → sn ≠ s.expectedSequence →
      exec (.cf sn payload) s = .next { s with
        state := .idle, bufLen := 0#12, totalValid := false, expectedTotal := 0#12, expectedSequence := 0#4,
        output := some (.response (.err .sequenceMismatch)) }) ∧
    (s.state = .receiving → sn = s.expectedSequence →
      ∀ n, n = min payload.length (s.expectedTotal.toNat - s.bufLen.toNat) →
      s.bufLen.toNat + n ≤ s.config.capacity.toNat →
      ∃ t, exec (.cf sn payload) s = .next t ∧
        t.state = (if s.bufLen.toNat + n = s.expectedTotal.toNat then .complete else .receiving) ∧
        t.bufLen.toNat = s.bufLen.toNat + n ∧ t.totalValid = s.totalValid ∧ t.expectedTotal = s.expectedTotal ∧
        t.expectedSequence.toNat = (s.expectedSequence.toNat + 1) % 16 ∧ t.output = some (.response .okNone) ∧
        t.buffer = s.buffer ++ payload.take n ∧
        (∀ i, i < n → t.cell (s.bufLen.toNat + i) = payload[i]?) ∧
        (∀ a, a < s.bufLen.toNat ∨ s.bufLen.toNat + n ≤ a → t.cell a = s.cell a) ∧ SameSurroundings s t)

/-- R104: the Flow-Control Frame is answered `Unsupported` in every state and changes nothing else. -/
def Obligations.FlowControlIsUnsupported : Prop :=
  ∀ (lo : Nibble) (rest : List Byte) (s : State), s.initialised = true → rest.length + 1 ≤ s.config.frameCap →
    exec (.fc lo rest) s = .next { s with output := some (.response (.err .unsupported)) }

/-- R142: each of the twelve reserved types is answered `UnknownFrameType`, whatever the low nibble and the other
bytes hold, and changes nothing else. -/
def Obligations.ReservedTypesAreUnknown : Prop :=
  ∀ (lo : Nibble) (rest : List Byte) (s : State), s.initialised = true → rest.length + 1 ≤ s.config.frameCap →
    ∀ t, t = { s with output := some (.response (.err .unknownFrameType)) } →
      exec (.rsv4 lo rest) s = .next t ∧ exec (.rsv5 lo rest) s = .next t ∧ exec (.rsv6 lo rest) s = .next t ∧
      exec (.rsv7 lo rest) s = .next t ∧ exec (.rsv8 lo rest) s = .next t ∧ exec (.rsv9 lo rest) s = .next t ∧
      exec (.rsvA lo rest) s = .next t ∧ exec (.rsvB lo rest) s = .next t ∧ exec (.rsvC lo rest) s = .next t ∧
      exec (.rsvD lo rest) s = .next t ∧ exec (.rsvE lo rest) s = .next t ∧ exec (.rsvF lo rest) s = .next t

/-- R141: the empty frame and the First Frame of one byte are answered `MalformedFrame` and change nothing else. -/
def Obligations.MalformedFramesChangeNothing : Prop :=
  ∀ (f : List Byte) (s : State), s.initialised = true → f.length ≤ s.config.frameCap →
    (f = [] ∨ ∃ lo : Nibble, f = [0x1#4 ++ lo]) →
    exec (.update f) s = .next { s with output := some (.response (.err .malformedFrame)) }

/-! ### UPDATE as one operation -/

/-- R100, as the decoder splits it: UPDATE on a raw frame is the frame row the decoder reads from it. -/
def Obligations.UpdateRunsItsFrameRow : Prop :=
  ∀ (f : List Byte) (s : State), exec (.update f) s = exec (decodeFrame f) s

/-- R108, the table, with the priorities of R149: in a state a run reaches, UPDATE answers a next state whose `state`
and response are the table's. "unch." is the clause on failures that keep `state`; "ABORT" the one on those that do
not. -/
def Obligations.UpdateFollowsTransitionTable : Prop :=
  ∀ (f : List Byte) (s : State), s.Inv → s.initialised = true → f.length ≤ s.config.frameCap →
    ∃ t, exec (.update f) s = .next t ∧ t.state = (transitionTable s f).1 ∧
      t.output = some (.response (transitionTable s f).2) ∧
      (∀ e, (transitionTable s f).2 = .err e → t.state = s.state →
        t = { s with output := some (.response (.err e)) }) ∧
      (∀ e, (transitionTable s f).2 = .err e → t.state ≠ s.state → IdleRegisters t)

/-- R108, last paragraph: every arc into `IDLE` is an ABORT or RESET; every arc out of `COMPLETE` is a successful SF
or FF, or RESET; `RECEIVING` is entered only by a successful FF. Over every instruction and every state. -/
def Obligations.StateArcsAreTheTables : Prop :=
  ∀ (i : Instr) (s t : State), exec i s = .next t →
    (s.state ≠ .idle → t.state = .idle → i = .reset ∨
      (s.state = .receiving ∧ (t.output = some (.response (.err .overflow)) ∨
        t.output = some (.response (.err .sequenceMismatch))))) ∧
    (s.state = .complete → t.state ≠ .complete → i = .reset ∨
      ∃ total chunk, (i = .ff total chunk ∨ ∃ f, i = .update f ∧ decodeFrame f = .ff total chunk) ∧
        t.output = some (.response (.okSome total))) ∧
    (s.state ≠ .receiving → t.state = .receiving →
      ∃ total chunk, (i = .ff total chunk ∨ ∃ f, i = .update f ∧ decodeFrame f = .ff total chunk) ∧
        t.output = some (.response (.okSome total)))

/-- R107: which response an UPDATE that answers can return, and to which frames. -/
def Obligations.ResponsesMatchFrameTypes : Prop :=
  ∀ (f : List Byte) (s t : State), exec (.update f) s = .next t →
    ∃ r, t.output = some (.response r) ∧
      (∀ n, r = .okSome n →
        (∃ L rest, decodeFrame f = .sf L rest ∧ n = L.setWidth 12 ∧ t.state = .complete) ∨
        (∃ chunk, decodeFrame f = .ff n chunk ∧ (t.state = .complete ↔ chunk.length = n.toNat))) ∧
      (r = .okNone → ∃ sn payload, decodeFrame f = .cf sn payload)

/-- R79's reading of the source, decision D11 (log entry 9): a failure of the classifier is propagated unchanged and
changes no state, in any state. -/
def Obligations.ClassifierFailuresChangeNothing : Prop :=
  ∀ (f : List Byte) (s : State) (e : Failure), s.initialised = true → f.length ≤ s.config.frameCap →
    classify s.config.capacity f = .error e →
    exec (.update f) s = .next { s with output := some (.response (.err e)) }

/-- R109: an UPDATE that fails stores no byte, and makes no write at all unless it aborts a transfer. -/
def Obligations.FailingUpdateStoresNothing : Prop :=
  ∀ (i : Instr) (s t : State) (e : Failure), exec i s = .next t → t.output = some (.response (.err e)) →
    (∀ a, t.cell a = s.cell a) ∧
    (t = { s with output := some (.response (.err e)) } ∨
      (s.state = .receiving ∧ (e = .overflow ∨ e = .sequenceMismatch) ∧ IdleRegisters t ∧ SameSurroundings s t))

/-- R150, with R151's ABORT: the state effect of each failure, over every instruction and every state, is none or
ABORT: ABORT for `SequenceMismatch` and for `Overflow` in `RECEIVING`, none for every other: decisions D7, D8, D11 (log
entry 9). -/
def Obligations.FailureEffectIsNoneOrAbort : Prop :=
  ∀ (i : Instr) (s t : State) (e : Failure), exec i s = .next t → t.output = some (.response (.err e)) →
    ((e = .sequenceMismatch ∨ (e = .overflow ∧ s.state = .receiving)) →
      s.state = .receiving ∧
      t = { s with
        state := .idle, bufLen := 0#12, totalValid := false, expectedTotal := 0#12, expectedSequence := 0#4,
        output := some (.response (.err e)) }) ∧
    (¬(e = .sequenceMismatch ∨ (e = .overflow ∧ s.state = .receiving)) →
      t = { s with output := some (.response (.err e)) })

/-- In every state a run reaches, every UPDATE inside the contract responds; R177's "every UPDATE does respond". -/
def Obligations.EveryUpdateResponds : Prop :=
  ∀ (i : Instr) (n : Nat) (s : State), s.Inv → s.initialised = true → i.frameLen = some n →
    n ≤ s.config.frameCap →
    ∃ t r, exec i s = .next t ∧ t.output = some (.response r) ∧ SameSurroundings s t

/-- A frame longer than `FRAME_CAP` is outside the contract and refused by name (R50, decision D4), in every form that
carries a frame. -/
def Obligations.LongFramesAreRefused : Prop :=
  ∀ (i : Instr) (n : Nat) (s : State), s.initialised = true → i.frameLen = some n → s.config.frameCap < n →
    exec i s = .refused .frameTooLong

/-! ### READY and DATA -/

/-- R120: READY returns `state = COMPLETE` and writes nothing. -/
def Obligations.ReadyReportsComplete : Prop :=
  ∀ s : State, s.initialised = true →
    exec .ready s = .next { s with output := some (.ready (decide (s.state = .complete))) }

/-- R121: DATA returns the whole message in `COMPLETE` and `None` elsewhere, and writes nothing. The premise of the
first clause is R17. -/
def Obligations.DataReturnsCompleteMessage : Prop :=
  ∀ s : State, s.initialised = true →
    (s.state = .complete → s.bufLen.toNat ≤ s.config.capacity.toNat →
      ∃ bytes, exec .data s = .next { s with output := some (.data (some bytes)) } ∧
        bytes.length = s.bufLen.toNat ∧ ∀ i, i < s.bufLen.toNat → bytes[i]? = some (s.readByte i)) ∧
    (s.state ≠ .complete → exec .data s = .next { s with output := some (.data none) })

/-- R123: READY and DATA change no state and give the same result again. -/
def Obligations.InspectionIsIdempotent : Prop :=
  ∀ (i : Instr) (s t : State), i = .ready ∨ i = .data → exec i s = .next t →
    t = { s with output := t.output } ∧ exec i t = .next t

/-- The model's stop outside the address space (log entry 7; R30): DATA and CF on register values no run reaches. -/
def Obligations.MissingBufferCellsFault : Prop :=
  ∀ (s : State), s.initialised = true →
    (s.state = .complete → s.config.capacity.toNat < s.bufLen.toNat → exec .data s = .fault .noSuchBufferCell) ∧
    (∀ payload : List Byte, s.state = .receiving → payload.length + 1 ≤ s.config.frameCap →
      s.config.capacity.toNat <
        s.bufLen.toNat + min payload.length (s.expectedTotal.toNat - s.bufLen.toNat) →
      exec (.cf s.expectedSequence payload) s = .fault .noSuchBufferCell)

/-! ### The buffer -/

/-- R31's primitives: `MemWrite` sets exactly its cells, and `MemRead` reads them in order. R31 gives `MemRead` a
meaning for runs inside `buf_len` alone; that it answers for every run inside `CAPACITY` is the model's choice (log
entry 7), and a cell nothing has written reads there as the free value (log entry 6). -/
def Obligations.MemoryPrimitivesReadAndWrite : Prop :=
  ∀ (s : State) (addr : Nat) (v : List Byte), addr + v.length ≤ s.config.capacity.toNat →
    ∃ t, s.memWrite addr v = some t ∧ t = { s with buf := t.buf } ∧
      (∀ i, i < v.length → t.cell (addr + i) = v[i]?) ∧
      (∀ a, a < addr ∨ addr + v.length ≤ a → t.cell a = s.cell a) ∧
      t.memRead addr v.length = some v ∧
      ∀ n, addr + n ≤ s.config.capacity.toNat →
        ∃ bytes, s.memRead addr n = some bytes ∧ bytes.length = n ∧ ∀ i, i < n → bytes[i]? = some (s.readByte (addr + i))

/-- `buf_append` of R92: the overflow test is on the exact sum (decision D28, log entry 9) and comes before the write;
on success all bytes are appended in order. -/
def Obligations.AppendChecksThenStores : Prop :=
  ∀ (s : State) (bytes : List Byte),
    (s.config.capacity.toNat < s.bufLen.toNat + bytes.length → s.bufAppend bytes = none) ∧
    (s.bufLen.toNat + bytes.length ≤ s.config.capacity.toNat →
      ∃ t, s.bufAppend bytes = some t ∧ t = { s with buf := t.buf, bufLen := t.bufLen } ∧
        t.bufLen.toNat = s.bufLen.toNat + bytes.length ∧
        (∀ i, i < bytes.length → t.cell (s.bufLen.toNat + i) = bytes[i]?) ∧
        (∀ a, a < s.bufLen.toNat ∨ s.bufLen.toNat + bytes.length ≤ a → t.cell a = s.cell a))

/-- R94 and R96: the buffer write of an UPDATE is the one its four derived quantities describe, it stays inside
`BUF`, and it happens exactly when the UPDATE succeeds. -/
def Obligations.WriteControlDescribesTheWrite : Prop :=
  ∀ (f : List Byte) (s : State), s.Inv → s.initialised = true → f.length ≤ s.config.frameCap →
    let w := writeControl s f
    ∃ t, exec (.update f) s = .next t ∧
      (w.we = true ↔ ∀ e, t.output ≠ some (.response (.err e))) ∧
      (w.we = true → w.base s + w.nWr ≤ s.config.capacity.toNat ∧ t.bufLen.toNat = w.base s + w.nWr ∧
        (∀ i, i < w.nWr → t.cell (w.base s + i) = f[w.srcOff + i]?) ∧
        (∀ a, a < w.base s ∨ w.base s + w.nWr ≤ a → t.cell a = s.cell a)) ∧
      (w.we = false → (∀ a, t.cell a = s.cell a) ∧
        (t.bufLen = s.bufLen ∨ (s.state = .receiving ∧ IdleRegisters t)))

/-- R95: `Overflow` is raised in exactly the two cases: a Single Frame with `L > CAPACITY` and a First Frame whose
chunk exceeds its total. That a Consecutive Frame never raises it is decision D10 (log entry 9). -/
def Obligations.OverflowIsDetectedExactly : Prop :=
  ∀ (f : List Byte) (s t : State), exec (.update f) s = .next t →
    (t.output = some (.response (.err .overflow)) ↔
      (∃ L rest, decodeFrame f = .sf L rest ∧ L.toNat ≤ rest.length ∧ s.config.capacity.toNat < L.toNat) ∨
      (∃ total chunk, decodeFrame f = .ff total chunk ∧ total.toNat ≤ s.config.capacity.toNat ∧
        total.toNat < chunk.length)) ∧
    (t.output = some (.response (.err .overflow)) ↔ overflowDetected s f = true)

/-- R27: while a transfer goes on (no RESET, no ABORT, no new SF or FF) `buf_len` never decreases and the bytes held
never change. -/
def Obligations.BufferGrowsWithinTransfer : Prop :=
  ∀ (i : Instr) (s t : State), exec i s = .next t → t.state ≠ .idle →
    (∀ n, t.output ≠ some (.response (.okSome n))) →
    s.bufLen.toNat ≤ t.bufLen.toNat ∧ (∀ a, a < s.bufLen.toNat → t.cell a = s.cell a) ∧ s.buffer <+: t.buffer

/-- R25: a complete message persists, readable, until RESET or the next successful SF or FF. -/
def Obligations.CompleteMessagePersists : Prop :=
  ∀ (i : Instr) (s t : State), exec i s = .next t → s.state = .complete → i ≠ .reset →
    (∀ n, t.output ≠ some (.response (.okSome n))) → t = { s with output := t.output }

/-! ### What cannot be observed -/

/-- R43, at READY, DATA and the ports (decision D16, log entry 9): while `state` is not `COMPLETE`, nothing of `BUF`
is visible: two states that differ in the cells of `BUF` alone give the same READY, the same DATA and the same output
ports. -/
def Obligations.PartialDataIsNeverExposed : Prop :=
  ∀ (s : State) (cells : List Host.Cell), s.initialised = true → s.state ≠ .complete →
    let u := { s with buf := cells }
    (∀ idx, s.portsOut idx = u.portsOut idx) ∧ (∀ idx, s.rdByte idx = 0#8) ∧
    (∀ i, i = .ready ∨ i = .data →
      ∃ o, exec i s = .next { s with output := o } ∧ exec i u = .next { u with output := o })

/-- R12 with decision D15, on cells the model keeps (log entry 11): cells of `BUF` at `buf_len` and above are not
architectural, and states that differ in them alone go on to answer alike for ever. The clause on the ports holds
before the first RESET too, where the ports' levels are the model's choice (log entry 18). -/
def Obligations.StaleCellsAreUnobservable : Prop :=
  ∀ s u : State, SameArchitectural s u →
    (∀ t, step s = .next t → ∃ v, step u = .next v ∧ SameArchitectural t v ∧ t.output = v.output) ∧
    (∀ why, step s = .fault why → step u = .fault why) ∧ (∀ why, step s = .refused why → step u = .refused why) ∧
    (∀ idx, s.portsOut idx = u.portsOut idx)

/-- R161, R24 (c): what an operation returned is never used again: no step depends on it. -/
def Obligations.ResponsesAreNotRemembered : Prop :=
  ∀ (s : State) (o : Option Observation), step { s with output := o } = step s

/-! ### Decoding -/

/-- R51 and R52: the type is the high nibble of byte 0 and selects the row, the low nibble is the row's field (of an
FF, whose length R54 joins from it and byte 1, its four high bits), and any other type fails with
`UnknownFrameType`. -/
def Obligations.TypeNibbleSelectsTheRow : Prop :=
  ∀ (b0 : Byte) (rest : List Byte),
    (typeNibble b0).toNat = b0.toNat / 16 ∧ (lowNibble b0).toNat = b0.toNat % 16 ∧
    (b0.toNat / 16 = 0 → ∃ L, decodeFrame (b0 :: rest) = .sf L rest ∧ L.toNat = b0.toNat % 16) ∧
    (∀ (b1 : Byte) (payload : List Byte), b0.toNat / 16 = 1 → rest = b1 :: payload →
      ∃ total, decodeFrame (b0 :: rest) = .ff total payload ∧ total.toNat = (b0.toNat % 16) * 256 + b1.toNat) ∧
    (b0.toNat / 16 = 2 → ∃ sn, decodeFrame (b0 :: rest) = .cf sn rest ∧ sn.toNat = b0.toNat % 16) ∧
    (b0.toNat / 16 = 3 → ∃ lo, decodeFrame (b0 :: rest) = .fc lo rest ∧ lo.toNat = b0.toNat % 16) ∧
    (4 ≤ b0.toNat / 16 → ∀ s : State, s.initialised = true → rest.length + 1 ≤ s.config.frameCap →
      exec (decodeFrame (b0 :: rest)) s = .next { s with output := some (.response (.err .unknownFrameType)) })

/-- R58's worked encodings, decoded. -/
def Obligations.WorkedEncodingsDecode : Prop :=
  decodeFrame [0x07#8, 0x99#8] = .sf 7#4 [0x99#8] ∧
  decodeFrame [0x10#8, 0x0A#8, 0xB0#8] = .ff 10#12 [0xB0#8] ∧
  decodeFrame [0x21#8, 0xB6#8] = .cf 1#4 [0xB6#8] ∧
  decodeFrame [0x1F#8, 0xFF#8] = .ff 4095#12 [] ∧
  decodeFrame [0x12#8, 0x34#8] = .ff 564#12 [] ∧
  decodeFrame [0x2F#8] = .cf 15#4 [] ∧
  decodeFrame [0x20#8] = .cf 0#4 [] ∧
  decodeFrame [0x30#8] = .fc 0#4 [] ∧
  decodeFrame [0x40#8] = .rsv4 0#4 []

/-- Decoding inverts encoding: every well-formed instruction in the decoder's spelling comes back whole, every operand
at every value, on every instance (R50 to R59). -/
def Obligations.DecodeInvertsEncode : Prop :=
  ∀ (c : Config) (i : Instr), i.wf c = true → i.canonical = true → decode c (encode i) = .ok i

/-- Encoding inverts decoding, and decoding is total inside the contract (R64): every operation has exactly one
instruction, which is well formed and in the decoder's spelling. -/
def Obligations.EncodeInvertsDecode : Prop :=
  ∀ (c : Config) (op : HostOp), (∀ f, op = .update f → f.length ≤ c.frameCap) →
    ∃ i, decode c op = .ok i ∧ encode i = op ∧ i.wf c = true ∧ i.canonical = true ∧
      ∀ j, encode j = op → j.canonical = true → j = i

/-! ### The step -/

/-- A step takes the oldest issued operation, decodes it, and runs it: one operation at a time in issue order is R39,
the queue that holds them is the model's own (log entry 1). That a frame the decoder rejects is refused is decision D4,
and that it is so before the first RESET too is the model's choice (log entry 8). -/
def Obligations.StepRunsTheOldestOperation : Prop :=
  ∀ (s : State) (op : HostOp) (rest : List HostOp), s.pending = op :: rest →
    (∀ i, decode s.config op = .ok i → step s = exec i { s with pending := rest }) ∧
    (∀ why, decode s.config op = .error why → step s = .refused .frameTooLong)

/-- With no operation issued the block leaves no state on its own (R176; the idle step is the model's choice, log
entry 2). -/
def Obligations.IdleStepChangesNothing : Prop :=
  ∀ s : State, s.pending = [] → step s = .next { s with output := none }

/-- R15, and the model's own fields: no step changes the parameters, and each takes at most the oldest operation from
the queue. -/
def Obligations.StepKeepsParameters : Prop :=
  ∀ s t : State, step s = .next t → t.config = s.config ∧ t.pending = s.pending.tail ∧
    (s.initialised = true → t.initialised = true)

/-- R17 to R20 and the canonical form of memory hold at construction, for every instance R6 allows. -/
def Obligations.ConstructionMeetsInvariant : Prop :=
  ∀ c : Config, c.wf → (State.construct c).Inv

/-- R17 to R20 and the canonical form of memory hold after every step that starts in them, RESET from any register
values included. -/
def Obligations.StepKeepsInvariant : Prop :=
  ∀ s t : State, s.Inv → step s = .next t → t.Inv

/-- R38, R96: from a state in the invariant no step touches a cell `BUF` does not have. -/
def Obligations.InvariantStatesNeverFault : Prop :=
  ∀ (s : State) (why : Fault), s.Inv → step s ≠ .fault why

/-! ### The ports -/

/-- R126: the response port is the image of R107's response, with the encodings of decision D5 (log entry 9), and
RESET, READY and DATA present no response. That the ports show `output`, what the last operation returned, is the
model's choice (log entry 3), and so is that they do before the first RESET too (log entry 18). -/
def Obligations.ResponsePortImages : Prop :=
  (∀ (s : State) (r : Response) (idx : Length), s.output = some (.response r) →
    (s.portsOut idx).respValid = true ∧
    (s.portsOut idx).respKind = (match r with | .okNone => 0b00#2 | .okSome _ => 0b01#2 | .err _ => 0b10#2) ∧
    (s.portsOut idx).respSize = (match r with | .okSome n => n | _ => 0#12) ∧
    (s.portsOut idx).respErr = (match r with
      | .okNone => 0#4 | .okSome _ => 0#4
      | .err .malformedFrame => 1#4 | .err .unknownFrameType => 2#4 | .err .lengthMismatch => 3#4
      | .err .tooLarge => 4#4 | .err .overflow => 5#4 | .err .unexpectedFrame => 6#4
      | .err .sequenceMismatch => 7#4 | .err .unsupported => 8#4)) ∧
  (∀ (i : Instr) (s t : State) (idx : Length), i = .reset ∨ i = .ready ∨ i = .data → exec i s = .next t →
    (t.portsOut idx).respValid = false)

/-- R127: the DATA operation is what the data port carries, byte by byte, and outside a complete message the port
shows 0x00, which is decision D16 (log entry 9). -/
def Obligations.DataPortCarriesData : Prop :=
  ∀ s : State, s.initialised = true → s.bufLen.toNat ≤ s.config.capacity.toNat →
    ∃ d, exec .data s = .next { s with output := some (.data d) } ∧
      (s.dataValid = false → d = none) ∧
      (s.dataValid = true → ∃ bytes, d = some bytes ∧ bytes.length = s.dataLen.toNat ∧
        ∀ idx : Length, idx.toNat < s.dataLen.toNat → bytes[idx.toNat]? = some (s.rdByte idx)) ∧
      (∀ idx : Length, s.dataValid = false ∨ s.dataLen.toNat ≤ idx.toNat → s.rdByte idx = 0x00#8)

/-- R125: one request at the frame port is one UPDATE of the first `frame_len` lanes, and a `frame_len` above
`FRAME_CAP` is refused (decisions D2, D3, D4, log entry 9; before the first RESET too, log entry 8). `PortsIn.wf` is
what ports of R124's widths can carry, and it shuts out no `frame_len` inside the contract. That the request is carried
out ahead of operations that wait in the queue is the model's choice (log entry 19). -/
def Obligations.FramePortRequestsOneUpdate : Prop :=
  ∀ (p : PortsIn) (s : State), p.rst = false → p.frameValid = true → p.wf s.config →
    (p.frameLen ≤ s.config.frameCap → portStep p s = exec (.update (p.frameData.take p.frameLen)) s) ∧
    (s.config.frameCap < p.frameLen → portStep p s = .refused .frameTooLong) ∧
    (∀ lanes : List Byte, lanes.length = s.config.frameCap → lanes.take p.frameLen = p.frameData.take p.frameLen →
      portStep { p with frameData := lanes } s = portStep p s) ∧
    (∀ n, n ≤ s.config.frameCap → PortsIn.wf { p with frameLen := n } s.config)

/-- R124 and R173 at the ports: `rst` alone is RESET. That two requests at once are refused is the model's form of
decision D21 (log entry 12), and that no request answers a step that changes nothing and clears the output is the
model's choice (log entry 2). So is that operations waiting in the queue stay there (log entry 19). -/
def Obligations.PortRequestsAreSerialised : Prop :=
  ∀ (p : PortsIn) (s : State),
    (p.rst = true → p.frameValid = false → portStep p s = exec .reset s) ∧
    (p.rst = true → p.frameValid = true → portStep p s = .refused .overlappingOperations) ∧
    (p.rst = false → p.frameValid = false → portStep p s = .next { s with output := none })

/-! ### Transfers -/

/-- The source's first testable property (`95_test_vectors.md` E3.1): after a Single Frame that fits, from any state,
READY is true and DATA is its payload. That operations waiting in the queue are not carried out is the model's choice
(log entry 19). -/
def Obligations.SingleFrameMessageIsDelivered : Prop :=
  ∀ (L : Nibble) (rest : List Byte) (s : State) (seen : List Observation), s.initialised = true →
    rest.length + 1 ≤ s.config.frameCap → L.toNat ≤ rest.length → L.toNat ≤ s.config.capacity.toNat →
    ∃ t, runOps [encode (.sf L rest), .ready, .data] seen s =
      .next (t, seen ++ [.response (.okSome (L.setWidth 12)), .ready true, .data (some (rest.take L.toNat))])

/-- The source's second testable property (`95_test_vectors.md` E3.2): a First Frame and Consecutive Frames in
sequence, whatever the chunks, from any state. As long as no frame but the last brings the bytes held to `total`, the
bytes held are the concatenation of the chunks cut at `total`, the block is ready exactly once they reach `total`, and
then DATA returns them. Cutting at `total` is decision D10 (log entry 9), and that operations waiting in the queue are
not carried out is the model's choice (log entry 19). -/
def Obligations.SegmentedTransferReassembles : Prop :=
  ∀ (total : Length) (initial : List Byte) (chunks : List (List Byte)) (s : State) (seen : List Observation),
    s.initialised = true → total.toNat ≤ s.config.capacity.toNat → initial.length + 2 ≤ s.config.frameCap →
    (∀ c ∈ chunks, c.length + 1 ≤ s.config.frameCap) → initial.length ≤ total.toNat →
    (chunks ≠ [] → initial.length + chunks.dropLast.flatten.length < total.toNat) →
    ∃ t, runOps (transferOps total initial chunks) seen s =
        .next (t, seen ++ .response (.okSome total) :: chunks.map fun _ => .response .okNone) ∧
      t.buffer = (initial ++ chunks.flatten).take total.toNat ∧
      t.ready = decide (total.toNat ≤ (initial ++ chunks.flatten).length) ∧
      (t.ready = true → exec .data t =
        .next { t with output := some (.data (some ((initial ++ chunks.flatten).take total.toNat))) })
end

