-- ==== Sys2Proof/Laws/State.lean ====
section
/-! SUPPORT. The fields of each register update, one lemma per field per update, true by `rfl`, and the cells of `BUF`
after each; so that no proof unfolds a record update. -/

namespace Sys2Proof.Machine

/-! ### `clearRegisters` -/

@[simp] theorem State.clearRegisters_config (s : State) : s.clearRegisters.config = s.config := rfl
@[simp] theorem State.clearRegisters_initialised (s : State) : s.clearRegisters.initialised = s.initialised := rfl
@[simp] theorem State.clearRegisters_state (s : State) : s.clearRegisters.state = .idle := rfl
@[simp] theorem State.clearRegisters_bufLen (s : State) : s.clearRegisters.bufLen = 0#12 := rfl
@[simp] theorem State.clearRegisters_buf (s : State) : s.clearRegisters.buf = s.buf := rfl
@[simp] theorem State.clearRegisters_totalValid (s : State) : s.clearRegisters.totalValid = false := rfl
@[simp] theorem State.clearRegisters_expectedTotal (s : State) : s.clearRegisters.expectedTotal = 0#12 := rfl
@[simp] theorem State.clearRegisters_expectedSequence (s : State) : s.clearRegisters.expectedSequence = 0#4 := rfl
@[simp] theorem State.clearRegisters_output (s : State) : s.clearRegisters.output = s.output := rfl
@[simp] theorem State.clearRegisters_pending (s : State) : s.clearRegisters.pending = s.pending := rfl
@[simp] theorem State.clearRegisters_cell (s : State) (a : Nat) : s.clearRegisters.cell a = s.cell a := rfl

/-! ### `abort` -/

@[simp] theorem State.abort_config (s : State) : s.abort.config = s.config := rfl
@[simp] theorem State.abort_initialised (s : State) : s.abort.initialised = s.initialised := rfl
@[simp] theorem State.abort_state (s : State) : s.abort.state = .idle := rfl
@[simp] theorem State.abort_bufLen (s : State) : s.abort.bufLen = 0#12 := rfl
@[simp] theorem State.abort_buf (s : State) : s.abort.buf = s.buf := rfl
@[simp] theorem State.abort_totalValid (s : State) : s.abort.totalValid = false := rfl
@[simp] theorem State.abort_expectedTotal (s : State) : s.abort.expectedTotal = 0#12 := rfl
@[simp] theorem State.abort_expectedSequence (s : State) : s.abort.expectedSequence = 0#4 := rfl
@[simp] theorem State.abort_output (s : State) : s.abort.output = s.output := rfl
@[simp] theorem State.abort_pending (s : State) : s.abort.pending = s.pending := rfl
@[simp] theorem State.abort_cell (s : State) (a : Nat) : s.abort.cell a = s.cell a := rfl

/-! ### `bufReset` -/

@[simp] theorem State.bufReset_config (s : State) : s.bufReset.config = s.config := rfl
@[simp] theorem State.bufReset_initialised (s : State) : s.bufReset.initialised = s.initialised := rfl
@[simp] theorem State.bufReset_state (s : State) : s.bufReset.state = s.state := rfl
@[simp] theorem State.bufReset_bufLen (s : State) : s.bufReset.bufLen = 0#12 := rfl
@[simp] theorem State.bufReset_buf (s : State) : s.bufReset.buf = s.buf := rfl
@[simp] theorem State.bufReset_totalValid (s : State) : s.bufReset.totalValid = s.totalValid := rfl
@[simp] theorem State.bufReset_expectedTotal (s : State) : s.bufReset.expectedTotal = s.expectedTotal := rfl
@[simp] theorem State.bufReset_expectedSequence (s : State) : s.bufReset.expectedSequence = s.expectedSequence := rfl
@[simp] theorem State.bufReset_output (s : State) : s.bufReset.output = s.output := rfl
@[simp] theorem State.bufReset_pending (s : State) : s.bufReset.pending = s.pending := rfl
@[simp] theorem State.bufReset_cell (s : State) (a : Nat) : s.bufReset.cell a = s.cell a := rfl

/-! ### `openTransfer` -/

@[simp] theorem State.openTransfer_config (s : State) (total : Length) (sn : Nibble) (p : Phase) : (s.openTransfer total sn p).config = s.config := rfl
@[simp] theorem State.openTransfer_initialised (s : State) (total : Length) (sn : Nibble) (p : Phase) : (s.openTransfer total sn p).initialised = s.initialised := rfl
@[simp] theorem State.openTransfer_state (s : State) (total : Length) (sn : Nibble) (p : Phase) : (s.openTransfer total sn p).state = p := rfl
@[simp] theorem State.openTransfer_bufLen (s : State) (total : Length) (sn : Nibble) (p : Phase) : (s.openTransfer total sn p).bufLen = s.bufLen := rfl
@[simp] theorem State.openTransfer_buf (s : State) (total : Length) (sn : Nibble) (p : Phase) : (s.openTransfer total sn p).buf = s.buf := rfl
@[simp] theorem State.openTransfer_totalValid (s : State) (total : Length) (sn : Nibble) (p : Phase) : (s.openTransfer total sn p).totalValid = true := rfl
@[simp] theorem State.openTransfer_expectedTotal (s : State) (total : Length) (sn : Nibble) (p : Phase) : (s.openTransfer total sn p).expectedTotal = total := rfl
@[simp] theorem State.openTransfer_expectedSequence (s : State) (total : Length) (sn : Nibble) (p : Phase) : (s.openTransfer total sn p).expectedSequence = sn := rfl
@[simp] theorem State.openTransfer_output (s : State) (total : Length) (sn : Nibble) (p : Phase) : (s.openTransfer total sn p).output = s.output := rfl
@[simp] theorem State.openTransfer_pending (s : State) (total : Length) (sn : Nibble) (p : Phase) : (s.openTransfer total sn p).pending = s.pending := rfl
@[simp] theorem State.openTransfer_cell (s : State) (total : Length) (sn : Nibble) (p : Phase) (a : Nat) : (s.openTransfer total sn p).cell a = s.cell a := rfl

/-! ### `present` -/

@[simp] theorem State.present_config (s : State) (o : Option Observation) : (s.present o).config = s.config := rfl
@[simp] theorem State.present_initialised (s : State) (o : Option Observation) : (s.present o).initialised = s.initialised := rfl
@[simp] theorem State.present_state (s : State) (o : Option Observation) : (s.present o).state = s.state := rfl
@[simp] theorem State.present_bufLen (s : State) (o : Option Observation) : (s.present o).bufLen = s.bufLen := rfl
@[simp] theorem State.present_buf (s : State) (o : Option Observation) : (s.present o).buf = s.buf := rfl
@[simp] theorem State.present_totalValid (s : State) (o : Option Observation) : (s.present o).totalValid = s.totalValid := rfl
@[simp] theorem State.present_expectedTotal (s : State) (o : Option Observation) : (s.present o).expectedTotal = s.expectedTotal := rfl
@[simp] theorem State.present_expectedSequence (s : State) (o : Option Observation) : (s.present o).expectedSequence = s.expectedSequence := rfl
@[simp] theorem State.present_output (s : State) (o : Option Observation) : (s.present o).output = o := rfl
@[simp] theorem State.present_pending (s : State) (o : Option Observation) : (s.present o).pending = s.pending := rfl
@[simp] theorem State.present_cell (s : State) (o : Option Observation) (a : Nat) : (s.present o).cell a = s.cell a := rfl

/-! ### `respond` -/

@[simp] theorem State.respond_config (s : State) (r : Response) : (s.respond r).config = s.config := rfl
@[simp] theorem State.respond_initialised (s : State) (r : Response) : (s.respond r).initialised = s.initialised := rfl
@[simp] theorem State.respond_state (s : State) (r : Response) : (s.respond r).state = s.state := rfl
@[simp] theorem State.respond_bufLen (s : State) (r : Response) : (s.respond r).bufLen = s.bufLen := rfl
@[simp] theorem State.respond_buf (s : State) (r : Response) : (s.respond r).buf = s.buf := rfl
@[simp] theorem State.respond_totalValid (s : State) (r : Response) : (s.respond r).totalValid = s.totalValid := rfl
@[simp] theorem State.respond_expectedTotal (s : State) (r : Response) : (s.respond r).expectedTotal = s.expectedTotal := rfl
@[simp] theorem State.respond_expectedSequence (s : State) (r : Response) : (s.respond r).expectedSequence = s.expectedSequence := rfl
@[simp] theorem State.respond_output (s : State) (r : Response) : (s.respond r).output = some (.response r) := rfl
@[simp] theorem State.respond_pending (s : State) (r : Response) : (s.respond r).pending = s.pending := rfl
@[simp] theorem State.respond_cell (s : State) (r : Response) (a : Nat) : (s.respond r).cell a = s.cell a := rfl

end Sys2Proof.Machine
end

