-- ==== Sys2Proof/Laws/Memory.lean ====
section
/-! SUPPORT. The laws of the sparse memory: read after write, the canonical form, and that equal memories in
canonical form are equal lists. -/

namespace Sys2Proof.Machine

theorem Memory.read_write_same (m : List Host.Cell) (a : Nat) (v : Byte) :
    Memory.read (Memory.write m a v) a = some v := by
  induction m with
  | nil => simp [Memory.write, Memory.read]
  | cons c rest ih =>
    obtain ⟨k, w⟩ := c
    unfold Memory.write
    split
    · simp [Memory.read]
    · split
      · simp [Memory.read]
      · rw [Memory.read, if_neg (by omega), ih]

theorem Memory.read_write_other (m : List Host.Cell) {a b : Nat} (v : Byte) (h : b ≠ a) :
    Memory.read (Memory.write m a v) b = Memory.read m b := by
  induction m with
  | nil => simp [Memory.write, Memory.read, Ne.symm h]
  | cons c rest ih =>
    obtain ⟨k, w⟩ := c
    unfold Memory.write
    split
    · rw [Memory.read, if_neg (Ne.symm h)]
    · split
      · subst_vars
        simp [Memory.read, Ne.symm h]
      · simp only [Memory.read, ih]

/-- The indices a write leaves listed. -/
theorem Memory.mem_write {m : List Host.Cell} {a : Nat} {v : Byte} {c : Host.Cell}
    (h : c ∈ Memory.write m a v) : c = (a, v) ∨ c ∈ m := by
  induction m with
  | nil => simpa [Memory.write] using h
  | cons d rest ih =>
    obtain ⟨k, w⟩ := d
    unfold Memory.write at h
    split at h
    · simpa using h
    · split at h
      · rcases List.mem_cons.1 h with h | h
        · exact .inl h
        · exact .inr (List.mem_cons_of_mem _ h)
      · rcases List.mem_cons.1 h with h | h
        · exact .inr (h ▸ List.mem_cons_self)
        · exact (ih h).imp_right (List.mem_cons_of_mem _)

theorem Memory.write_wf {m : List Host.Cell} (a : Nat) (v : Byte) (h : Memory.wf m) :
    Memory.wf (Memory.write m a v) := by
  induction m with
  | nil => simp [Memory.write]
  | cons d rest ih =>
    obtain ⟨k, w⟩ := d
    obtain ⟨hk, hr⟩ := List.pairwise_cons.1 h
    unfold Memory.write
    split
    · refine List.pairwise_cons.2 ⟨fun c hc => ?_, h⟩
      rcases List.mem_cons.1 hc with rfl | hc
      · assumption
      · exact Nat.lt_trans (by assumption) (hk c hc)
    · split
      · subst_vars
        exact List.pairwise_cons.2 ⟨hk, hr⟩
      · refine List.pairwise_cons.2 ⟨fun c hc => ?_, ih hr⟩
        rcases Memory.mem_write hc with rfl | hc
        · show k < a
          omega
        · exact hk c hc

/-- Every memory operation keeps the canonical form. -/
theorem Memory.writeBytes_wf {m : List Host.Cell} (a : Nat) (bytes : List Byte) (h : Memory.wf m) :
    Memory.wf (Memory.writeBytes m a bytes) := by
  induction bytes generalizing m a with
  | nil => exact h
  | cons b rest ih => exact ih _ (Memory.write_wf a b h)

theorem Memory.mem_writeBytes {m : List Host.Cell} {a : Nat} {bytes : List Byte} {c : Host.Cell}
    (h : c ∈ Memory.writeBytes m a bytes) : (a ≤ c.1 ∧ c.1 < a + bytes.length) ∨ c ∈ m := by
  induction bytes generalizing m a with
  | nil => exact .inr h
  | cons b rest ih =>
    rcases ih h with ⟨h1, h2⟩ | h
    · exact .inl ⟨by omega, by simp only [List.length_cons]; omega⟩
    · rcases Memory.mem_write h with rfl | h
      · exact .inl ⟨Nat.le_refl _, by simp⟩
      · exact .inr h

theorem Memory.read_writeBytes_outside (m : List Host.Cell) {a b : Nat} (bytes : List Byte)
    (h : b < a ∨ a + bytes.length ≤ b) : Memory.read (Memory.writeBytes m a bytes) b = Memory.read m b := by
  induction bytes generalizing m a with
  | nil => rfl
  | cons x rest ih =>
    simp only [List.length_cons] at h
    rw [Memory.writeBytes, ih _ (by omega), Memory.read_write_other _ _ (by omega)]

theorem Memory.read_writeBytes_inside (m : List Host.Cell) (a : Nat) (bytes : List Byte) {i : Nat}
    (h : i < bytes.length) : Memory.read (Memory.writeBytes m a bytes) (a + i) = some bytes[i] := by
  induction bytes generalizing m a i with
  | nil => simp at h
  | cons x rest ih =>
    cases i with
    | zero =>
      rw [Memory.writeBytes, Memory.read_writeBytes_outside _ _ (.inl (by omega))]
      simpa using Memory.read_write_same m a x
    | succ j =>
      have := ih (Memory.write m a x) (a + 1) (i := j) (by simpa using h)
      rw [Memory.writeBytes, show a + (j + 1) = a + 1 + j by omega, this]
      rfl

theorem Memory.read_eq_some_of_mem {m : List Host.Cell} (h : Memory.wf m) {c : Host.Cell} (hc : c ∈ m) :
    Memory.read m c.1 = some c.2 := by
  induction m with
  | nil => simp at hc
  | cons d rest ih =>
    obtain ⟨hd, hr⟩ := List.pairwise_cons.1 h
    rcases List.mem_cons.1 hc with rfl | hc
    · simp [Memory.read]
    · have := hd c hc
      rw [Memory.read, if_neg (by omega), ih hr hc]

theorem Memory.mem_of_read {m : List Host.Cell} {a : Nat} {v : Byte} (h : Memory.read m a = some v) : (a, v) ∈ m := by
  induction m with
  | nil => simp [Memory.read] at h
  | cons d rest ih =>
    obtain ⟨k, w⟩ := d
    rw [Memory.read] at h
    split at h
    · subst_vars
      simp_all
    · exact List.mem_cons_of_mem _ (ih h)

end Sys2Proof.Machine
end

