-- ==== Sys2Proof/Laws/Ops.lean ====
section
/-! SUPPORT. What the shared operations can do, said once each: `buf_append`, `raise`, the refusal that stands before
an UPDATE, and the abstract view `buffer`. -/

namespace Sys2Proof.Machine

/-! ### Reading `BUF` -/

@[simp] theorem State.bytesFrom_length (s : State) (a n : Nat) : (s.bytesFrom a n).length = n := by
  simp [State.bytesFrom]

@[simp] theorem State.buffer_length (s : State) : s.buffer.length = s.bufLen.toNat := by
  simp [State.buffer]

theorem State.bytesFrom_getElem (s : State) {a n i : Nat} (h : i < (s.bytesFrom a n).length) :
    (s.bytesFrom a n)[i] = s.readByte (a + i) := by
  simp [State.bytesFrom]

theorem State.readByte_of_cell {s : State} {a : Nat} {v : Byte} (h : s.cell a = some v) : s.readByte a = v := by
  simp [State.readByte, h]

/-- Two runs of bytes agree when their cells do. -/
theorem State.bytesFrom_congr {s t : State} {a n : Nat} (h : ∀ i, i < n → s.cell (a + i) = t.cell (a + i)) :
    s.bytesFrom a n = t.bytesFrom a n := by
  refine List.map_congr_left fun i hi => ?_
  simp [State.readByte, h i (List.mem_range.1 hi)]

/-- A run whose cells hold `bytes` reads as `bytes`. -/
theorem State.bytesFrom_eq {s : State} {a : Nat} {bytes : List Byte}
    (h : ∀ i (hi : i < bytes.length), s.cell (a + i) = some bytes[i]) : s.bytesFrom a bytes.length = bytes := by
  refine List.ext_getElem (by simp) fun i h1 h2 => ?_
  rw [State.bytesFrom_getElem]
  exact State.readByte_of_cell (h i h2)

theorem State.bytesFrom_append (s : State) (a n k : Nat) :
    s.bytesFrom a (n + k) = s.bytesFrom a n ++ s.bytesFrom (a + n) k := by
  simp [State.bytesFrom, List.range_add, Nat.add_assoc]

/-! ### `buf_append` -/

/-- The state after a `buf_append` that succeeds. -/
def State.appended (s : State) (bytes : List Byte) : State :=
  { s with
    buf := Memory.writeBytes s.buf s.bufLen.toNat bytes
    bufLen := BitVec.ofNat 12 (s.bufLen.toNat + bytes.length) }

/-- `buf_append` fails exactly when the exact sum exceeds `CAPACITY`, and otherwise answers `appended`. -/
theorem State.bufAppend_eq (s : State) (bytes : List Byte) :
    s.bufAppend bytes =
      if s.config.capacity.toNat < s.bufLen.toNat + bytes.length then none else some (s.appended bytes) := by
  unfold State.bufAppend
  split
  · rfl
  · rw [State.memWrite, if_pos (by omega)]
    rfl

theorem State.bufAppend_of_fits {s : State} {bytes : List Byte}
    (h : s.bufLen.toNat + bytes.length ≤ s.config.capacity.toNat) : s.bufAppend bytes = some (s.appended bytes) := by
  rw [State.bufAppend_eq, if_neg (by omega)]

theorem State.bufAppend_of_exceeds {s : State} {bytes : List Byte}
    (h : s.config.capacity.toNat < s.bufLen.toNat + bytes.length) : s.bufAppend bytes = none := by
  rw [State.bufAppend_eq, if_pos h]

theorem State.appended_bufLen {s : State} {bytes : List Byte}
    (h : s.bufLen.toNat + bytes.length ≤ s.config.capacity.toNat) :
    (s.appended bytes).bufLen.toNat = s.bufLen.toNat + bytes.length := by
  have := s.config.capacity.isLt
  simp only [State.appended, BitVec.toNat_ofNat]
  omega

@[simp] theorem State.appended_config (s : State) (b : List Byte) : (s.appended b).config = s.config := rfl
@[simp] theorem State.appended_initialised (s : State) (b : List Byte) :
    (s.appended b).initialised = s.initialised := rfl
@[simp] theorem State.appended_state (s : State) (b : List Byte) : (s.appended b).state = s.state := rfl
@[simp] theorem State.appended_totalValid (s : State) (b : List Byte) : (s.appended b).totalValid = s.totalValid := rfl
@[simp] theorem State.appended_expectedTotal (s : State) (b : List Byte) :
    (s.appended b).expectedTotal = s.expectedTotal := rfl
@[simp] theorem State.appended_expectedSequence (s : State) (b : List Byte) :
    (s.appended b).expectedSequence = s.expectedSequence := rfl
@[simp] theorem State.appended_output (s : State) (b : List Byte) : (s.appended b).output = s.output := rfl
@[simp] theorem State.appended_pending (s : State) (b : List Byte) : (s.appended b).pending = s.pending := rfl

theorem State.appended_cell_outside (s : State) {bytes : List Byte} {a : Nat}
    (h : a < s.bufLen.toNat ∨ s.bufLen.toNat + bytes.length ≤ a) : (s.appended bytes).cell a = s.cell a :=
  Memory.read_writeBytes_outside _ _ h

theorem State.appended_cell_inside (s : State) {bytes : List Byte} {i : Nat} (h : i < bytes.length) :
    (s.appended bytes).cell (s.bufLen.toNat + i) = some bytes[i] :=
  Memory.read_writeBytes_inside _ _ _ h

/-- After a `buf_append` that fits, `buffer` is the old one followed by the bytes (R90, R92). -/
theorem State.appended_buffer {s : State} {bytes : List Byte}
    (h : s.bufLen.toNat + bytes.length ≤ s.config.capacity.toNat) :
    (s.appended bytes).buffer = s.buffer ++ bytes := by
  rw [State.buffer, State.appended_bufLen h, State.bytesFrom_append]
  congr 1
  · exact State.bytesFrom_congr fun i hi => s.appended_cell_outside (.inl (by omega))
  · refine State.bytesFrom_eq fun i hi => ?_
    rw [Nat.zero_add]
    exact s.appended_cell_inside hi

/-! ### `raise` -/

/-- What `raise` does: a failure that does not abort changes only what is presented; one that does performs ABORT. -/
theorem State.raise_cases (s : State) (f : Failure) :
    (f.aborts s.state = false ∧ s.raise f = s.respond (.err f)) ∨
    (f.aborts s.state = true ∧ s.raise f = s.abort.respond (.err f)) := by
  unfold State.raise
  cases h : f.aborts s.state <;> simp

theorem State.raise_of_keeps {s : State} {f : Failure} (h : f.aborts s.state = false) :
    s.raise f = s.respond (.err f) := by
  simp [State.raise, h]

theorem State.raise_of_aborts {s : State} {f : Failure} (h : f.aborts s.state = true) :
    s.raise f = s.abort.respond (.err f) := by
  simp [State.raise, h]

@[simp] theorem State.raise_config (s : State) (f : Failure) : (s.raise f).config = s.config := by
  rcases s.raise_cases f with ⟨-, h⟩ | ⟨-, h⟩ <;> simp [h]
@[simp] theorem State.raise_initialised (s : State) (f : Failure) : (s.raise f).initialised = s.initialised := by
  rcases s.raise_cases f with ⟨-, h⟩ | ⟨-, h⟩ <;> simp [h]
@[simp] theorem State.raise_pending (s : State) (f : Failure) : (s.raise f).pending = s.pending := by
  rcases s.raise_cases f with ⟨-, h⟩ | ⟨-, h⟩ <;> simp [h]
@[simp] theorem State.raise_buf (s : State) (f : Failure) : (s.raise f).buf = s.buf := by
  rcases s.raise_cases f with ⟨-, h⟩ | ⟨-, h⟩ <;> simp [h]
@[simp] theorem State.raise_output (s : State) (f : Failure) : (s.raise f).output = some (.response (.err f)) := by
  rcases s.raise_cases f with ⟨-, h⟩ | ⟨-, h⟩ <;> simp [h]

/-! ### What stands before an UPDATE -/

theorem State.updateRefusal_eq_none {s : State} {n : Nat} :
    s.updateRefusal n = none ↔ s.initialised = true ∧ n ≤ s.config.frameCap := by
  unfold State.updateRefusal
  cases s.initialised <;> simp

theorem State.updateWith_of_accepted {s : State} {n : Nat} (hi : s.initialised = true) (hn : n ≤ s.config.frameCap)
    (r : Classified) : s.updateWith n r = s.transport r := by
  rw [State.updateWith, State.updateRefusal_eq_none.2 ⟨hi, hn⟩]

end Sys2Proof.Machine
end

