-- ==== Sys2Proof/Laws/Transport.lean ====
section
/-! SUPPORT. What UPDATE can do, said once: the four ways a classified frame takes effect, and the inversion lemma of
`exec` over every instruction. -/

namespace Sys2Proof.Machine

/-! ### The rules of UPDATE, each as an equation -/

theorem State.acceptSingle_of_fits {s : State} {L : Nibble} {payload : List Byte}
    (h : payload.length ≤ s.config.capacity.toNat) :
    s.acceptSingle L payload =
      .next (((s.bufReset.appended payload).openTransfer (L.setWidth 12) 0#4 .complete).respond
        (.okSome (L.setWidth 12))) := by
  rw [State.acceptSingle, State.bufAppend_of_fits (by simpa using h)]

theorem State.acceptSingle_of_exceeds {s : State} {L : Nibble} {payload : List Byte}
    (h : s.config.capacity.toNat < payload.length) : s.acceptSingle L payload = .next (s.raise .overflow) := by
  rw [State.acceptSingle, State.bufAppend_eq, if_pos (by simpa using h)]

theorem State.acceptFirst_of_fits {s : State} {total : Length} {chunk : List Byte}
    (hc : chunk.length ≤ total.toNat) (h : chunk.length ≤ s.config.capacity.toNat) :
    s.acceptFirst total chunk =
      .next (((s.bufReset.appended chunk).openTransfer total 1#4 (phaseAfter chunk.length total.toNat)).respond
        (.okSome total)) := by
  rw [State.acceptFirst, if_neg (by omega), State.bufAppend_of_fits (by simpa using h)]

theorem State.acceptFirst_of_exceeds {s : State} {total : Length} {chunk : List Byte}
    (h : total.toNat < chunk.length) : s.acceptFirst total chunk = .next (s.raise .overflow) := by
  rw [State.acceptFirst, if_pos h]

theorem State.acceptFirst_of_no_room {s : State} {total : Length} {chunk : List Byte}
    (h : s.config.capacity.toNat < chunk.length) : s.acceptFirst total chunk = .next (s.raise .overflow) := by
  rw [State.acceptFirst]
  split
  · rfl
  · rw [State.bufAppend_of_exceeds (by simpa using h)]

/-- The state after a Consecutive Frame that is accepted (R103). -/
def State.continued (s : State) (payload : List Byte) : State :=
  { s.appended (s.wanted payload) with
    expectedSequence := s.expectedSequence + 1#4
    state := phaseAfter (s.bufLen.toNat + (s.wanted payload).length) s.expectedTotal.toNat }

theorem State.wanted_length (s : State) (payload : List Byte) :
    (s.wanted payload).length = min payload.length s.remaining := by
  simp [State.wanted]

theorem State.acceptConsecutive_of_fits {s : State} {payload : List Byte} (hs : s.state = .receiving)
    (h : s.bufLen.toNat + (s.wanted payload).length ≤ s.config.capacity.toNat) :
    s.acceptConsecutive s.expectedSequence payload = .next ((s.continued payload).respond .okNone) := by
  rw [State.acceptConsecutive, if_neg (by simp [hs]), if_neg (by simp), State.bufAppend_of_fits h]
  rfl

theorem State.acceptConsecutive_of_no_room {s : State} {payload : List Byte} (hs : s.state = .receiving)
    (h : s.config.capacity.toNat < s.bufLen.toNat + (s.wanted payload).length) :
    s.acceptConsecutive s.expectedSequence payload = .fault .noSuchBufferCell := by
  rw [State.acceptConsecutive, if_neg (by simp [hs]), if_neg (by simp), State.bufAppend_of_exceeds h]

theorem State.acceptConsecutive_of_not_receiving {s : State} (hs : s.state ≠ .receiving) (sn : Nibble)
    (payload : List Byte) : s.acceptConsecutive sn payload = .next (s.raise .unexpectedFrame) := by
  rw [State.acceptConsecutive, if_pos hs]

theorem State.acceptConsecutive_of_mismatch {s : State} (hs : s.state = .receiving) {sn : Nibble}
    (h : sn ≠ s.expectedSequence) (payload : List Byte) :
    s.acceptConsecutive sn payload = .next (s.raise .sequenceMismatch) := by
  rw [State.acceptConsecutive, if_neg (by simp [hs]), if_pos h]

/-! ### Everything UPDATE can do -/

/-- The ways a classified frame can lead from `s` to `t`. -/
inductive State.Transported (s t : State) : Classified → Prop where
  /-- A failure of the classifier, or `Unsupported`: only the response. -/
  | rejected {r : Classified} {f : Failure}
      (hr : r = .error f ∨ (f = .unsupported ∧ ∃ p, r = .ok (.flowControl, p)))
      (ht : t = s.raise f) : Transported s t r
  /-- A Single Frame that fits. -/
  | single {L : Nibble} {payload : List Byte} (h : payload.length ≤ s.config.capacity.toNat)
      (ht : t = ((s.bufReset.appended payload).openTransfer (L.setWidth 12) 0#4 .complete).respond
        (.okSome (L.setWidth 12))) : Transported s t (.ok (.single L, payload))
  /-- A First Frame that fits. -/
  | first {total : Length} {chunk : List Byte} (hc : chunk.length ≤ total.toNat)
      (h : chunk.length ≤ s.config.capacity.toNat)
      (ht : t = ((s.bufReset.appended chunk).openTransfer total 1#4 (phaseAfter chunk.length total.toNat)).respond
        (.okSome total)) : Transported s t (.ok (.first total, chunk))
  /-- A Single or First Frame that overflows. -/
  | overflow {p : Pci} {payload : List Byte}
      (hp : (∃ L, p = .single L ∧ s.config.capacity.toNat < payload.length) ∨
        ∃ total, p = .first total ∧ (total.toNat < payload.length ∨ s.config.capacity.toNat < payload.length))
      (ht : t = s.raise .overflow) : Transported s t (.ok (p, payload))
  /-- A Consecutive Frame with no transfer in progress. -/
  | unexpected {sn : Nibble} {payload : List Byte} (hs : s.state ≠ .receiving)
      (ht : t = s.raise .unexpectedFrame) : Transported s t (.ok (.consecutive sn, payload))
  /-- A Consecutive Frame out of order. -/
  | mismatch {sn : Nibble} {payload : List Byte} (hs : s.state = .receiving) (hn : sn ≠ s.expectedSequence)
      (ht : t = s.raise .sequenceMismatch) : Transported s t (.ok (.consecutive sn, payload))
  /-- A Consecutive Frame that is accepted. -/
  | continued {payload : List Byte} (hs : s.state = .receiving)
      (h : s.bufLen.toNat + (s.wanted payload).length ≤ s.config.capacity.toNat)
      (ht : t = (s.continued payload).respond .okNone) :
      Transported s t (.ok (.consecutive s.expectedSequence, payload))

/-- The inversion lemma of UPDATE: a next state is one of the cases of `Transported`. -/
theorem State.transport_next {s t : State} {r : Classified} (h : s.transport r = .next t) : s.Transported t r := by
  unfold State.transport at h
  split at h
  · cases h
    exact .rejected (.inl rfl) rfl
  · rename_i L payload
    rw [State.acceptSingle, State.bufAppend_eq] at h
    split at h <;> rename_i heq <;> split at heq <;> cases heq <;> cases h
    · rename_i hc
      exact .overflow (.inl ⟨_, rfl, by simpa using hc⟩) rfl
    · rename_i hc
      exact .single (by simpa using hc) rfl
  · rename_i total chunk
    rw [State.acceptFirst] at h
    split at h
    · cases h
      exact .overflow (.inr ⟨_, rfl, .inl (by assumption)⟩) rfl
    · rename_i hle
      rw [State.bufAppend_eq] at h
      split at h <;> rename_i heq <;> split at heq <;> cases heq <;> cases h
      · rename_i hc
        exact .overflow (.inr ⟨_, rfl, .inr (by simpa using hc)⟩) rfl
      · rename_i hc
        exact .first (by omega) (by simpa using hc) rfl
  · rename_i sn payload
    rw [State.acceptConsecutive] at h
    split at h
    · rename_i hs
      cases h
      exact .unexpected hs rfl
    · split at h
      · rename_i hs hn
        cases h
        exact .mismatch (by simpa using hs) hn rfl
      · rename_i hs hn
        have hn : sn = s.expectedSequence := by simpa using hn
        subst hn
        rw [State.bufAppend_eq] at h
        split at h <;> rename_i heq <;> split at heq <;> cases heq <;> cases h
        rename_i hc
        exact .continued (by simpa using hs) (by omega) rfl
  · cases h
    exact .rejected (.inr ⟨rfl, _, rfl⟩) rfl

/-- An UPDATE that answers a next state had a meaning, and did one of the cases of `Transported`. -/
theorem State.updateWith_next {s t : State} {n : Nat} {r : Classified} (h : s.updateWith n r = .next t) :
    s.initialised = true ∧ n ≤ s.config.frameCap ∧ s.Transported t r := by
  rw [State.updateWith] at h
  split at h
  · cases h
  · rename_i hr
    obtain ⟨h1, h2⟩ := State.updateRefusal_eq_none.1 hr
    exact ⟨h1, h2, State.transport_next h⟩

/-! ### Everything an instruction can do -/

/-- What the classifier says of the frame of an instruction that has one: the classifier entry its meaning uses. -/
def classified (capacity : Length) : Instr → Option Classified
  | .sf L rest => some (classifySingle L rest)
  | .ff total payload => some (classifyFirst capacity total payload)
  | .cf sn payload => some (classifyConsecutive sn payload)
  | .fc _ _ => some classifyFlowControl
  | .rsv4 _ _ => some classifyReserved
  | .rsv5 _ _ => some classifyReserved
  | .rsv6 _ _ => some classifyReserved
  | .rsv7 _ _ => some classifyReserved
  | .rsv8 _ _ => some classifyReserved
  | .rsv9 _ _ => some classifyReserved
  | .rsvA _ _ => some classifyReserved
  | .rsvB _ _ => some classifyReserved
  | .rsvC _ _ => some classifyReserved
  | .rsvD _ _ => some classifyReserved
  | .rsvE _ _ => some classifyReserved
  | .rsvF _ _ => some classifyReserved
  | .update frame => some (classify capacity frame)
  | .reset => none
  | .ready => none
  | .data => none

/-- An instruction with a frame is `updateWith` of its length and classification. -/
theorem exec_of_classified {i : Instr} {s : State} {r : Classified}
    (h : classified s.config.capacity i = some r) : ∃ n, i.frameLen = some n ∧ exec i s = s.updateWith n r := by
  cases i <;> simp only [classified, Option.some.injEq, reduceCtorEq] at h <;> subst h <;> exact ⟨_, rfl, rfl⟩

/-- The inversion lemma of `exec`: a next state comes from UPDATE, RESET, READY or DATA. -/
theorem exec_next {i : Instr} {s t : State} (h : exec i s = .next t) :
    (∃ r, classified s.config.capacity i = some r ∧ s.initialised = true ∧ s.Transported t r) ∨
    (i = .reset ∧ t = { s.clearRegisters with initialised := true }.present none) ∨
    (i = .ready ∧ s.initialised = true ∧ t = s.present (some (.ready s.ready))) ∨
    (i = .data ∧ s.initialised = true ∧ s.state = .complete ∧ s.bufLen.toNat ≤ s.config.capacity.toNat ∧
      t = s.present (some (.data (some s.buffer)))) ∨
    (i = .data ∧ s.initialised = true ∧ s.state ≠ .complete ∧ t = s.present (some (.data none))) := by
  cases hc : classified s.config.capacity i with
  | some r =>
    obtain ⟨n, -, he⟩ := exec_of_classified hc
    obtain ⟨h1, -, h2⟩ := State.updateWith_next (he ▸ h)
    exact .inl ⟨r, rfl, h1, h2⟩
  | none =>
    right
    cases i <;> simp only [classified, reduceCtorEq] at hc
    case reset =>
      cases h
      exact .inl ⟨rfl, rfl⟩
    case ready =>
      simp only [exec, execReady] at h
      split at h
      · cases h
      · rename_i hi
        cases h
        exact .inr (.inl ⟨rfl, by simpa using hi, rfl⟩)
    case data =>
      simp only [exec, execData, State.bufSlice, State.memRead] at h
      split at h
      · cases h
      · rename_i hi
        split at h
        · split at h <;> rename_i heq <;> split at heq <;> cases heq <;> cases h
          exact .inr (.inr (.inl ⟨rfl, by simpa using hi, ‹_›, by omega, rfl⟩))
        · cases h
          exact .inr (.inr (.inr ⟨rfl, by simpa using hi, ‹_›, rfl⟩))

end Sys2Proof.Machine
end

