-- ==== Sys2Proof/Laws/Decode.lean ====
section
/-! SUPPORT. The bit fields of the header as numbers and as inverses of the encoder's, and what decoding a frame keeps:
its length and its classification. -/

namespace Sys2Proof

theorem typeNibble_byte0 (t lo : Nibble) : typeNibble (byte0 t lo) = t := by decide +revert

theorem lowNibble_byte0 (t lo : Nibble) : lowNibble (byte0 t lo) = lo := by decide +revert

theorem byte0_fields (b : Byte) : byte0 (typeNibble b) (lowNibble b) = b := by decide +revert

theorem typeNibble_toNat (b : Byte) : (typeNibble b).toNat = b.toNat / 16 := by decide +revert

theorem lowNibble_toNat (b : Byte) : (lowNibble b).toNat = b.toNat % 16 := by decide +revert

theorem joinLength_toNat (lo : Nibble) (b : Byte) : (joinLength lo b).toNat = lo.toNat * 256 + b.toNat := by
  rw [joinLength, BitVec.toNat_append, ← Nat.shiftLeft_add_eq_or_of_lt b.isLt, Nat.shiftLeft_eq]

theorem lengthHigh_toNat (t : Length) : (lengthHigh t).toNat = t.toNat / 256 := by
  have := t.isLt
  simp only [lengthHigh, BitVec.extractLsb'_toNat, Nat.shiftRight_eq_div_pow]
  omega

theorem lengthLow_toNat (t : Length) : (lengthLow t).toNat = t.toNat % 256 := by
  simp [lengthLow, BitVec.extractLsb'_toNat]

theorem joinLength_fields (t : Length) : joinLength (lengthHigh t) (lengthLow t) = t := by
  apply BitVec.eq_of_toNat_eq
  rw [joinLength_toNat, lengthHigh_toNat, lengthLow_toNat]
  omega

theorem lengthHigh_joinLength (lo : Nibble) (b : Byte) : lengthHigh (joinLength lo b) = lo := by
  apply BitVec.eq_of_toNat_eq
  have := b.isLt
  rw [lengthHigh_toNat, joinLength_toNat]
  omega

theorem lengthLow_joinLength (lo : Nibble) (b : Byte) : lengthLow (joinLength lo b) = b := by
  apply BitVec.eq_of_toNat_eq
  have := b.isLt
  rw [lengthLow_toNat, joinLength_toNat]
  omega

end Sys2Proof

namespace Sys2Proof.Machine

/-- Decoding keeps the frame's length. -/
theorem decodeFrame_frameLen (f : List Byte) : (decodeFrame f).frameLen = some f.length := by
  unfold decodeFrame
  split
  · rfl
  · simp only
    split <;> (try split) <;> simp [Instr.frameLen]

/-- Decoding keeps the frame's classification: the row's own classifier entry is `classify` of the whole frame. -/
theorem decodeFrame_classified (c : Length) (f : List Byte) : classified c (decodeFrame f) = some (classify c f) := by
  unfold decodeFrame
  split
  · rfl
  · rename_i b0 rest
    have := (typeNibble b0).isLt
    simp only [classify]
    split <;> rename_i h <;> (try simp only [h]) <;> (try split) <;> (try simp [classified, classify, h])

end Sys2Proof.Machine
end

