-- ==== Sys2Proof/Laws/PerInstr.lean ====
section
/-! SUPPORT. Facts about every instruction, one lemma per constructor. -/

namespace Sys2Proof.Laws

/-- Family `EncodedFrame`: the encoder gives a well-formed instruction a frame inside the contract, of the length the
instruction says it has (R50). -/
def EncodedFrame.Statement (i : Instr) : Prop :=
  ∀ (c : Config) (f : List Byte), i.wf c = true → encode i = .update f →
    f.length ≤ c.frameCap ∧ i.frameLen = some f.length

theorem EncodedFrame.sf (L : Nibble) (rest : List Byte) : EncodedFrame.Statement (.sf L rest) := by
  intro c f hw h
  cases h
  exact ⟨of_decide_eq_true hw, rfl⟩

theorem EncodedFrame.ff (total : Length) (payload : List Byte) : EncodedFrame.Statement (.ff total payload) := by
  intro c f hw h
  cases h
  exact ⟨of_decide_eq_true hw, rfl⟩

theorem EncodedFrame.cf (sn : Nibble) (payload : List Byte) : EncodedFrame.Statement (.cf sn payload) := by
  intro c f hw h
  cases h
  exact ⟨of_decide_eq_true hw, rfl⟩

theorem EncodedFrame.fc (lo : Nibble) (rest : List Byte) : EncodedFrame.Statement (.fc lo rest) := by
  intro c f hw h
  cases h
  exact ⟨of_decide_eq_true hw, rfl⟩

theorem EncodedFrame.rsv4 (lo : Nibble) (rest : List Byte) : EncodedFrame.Statement (.rsv4 lo rest) := by
  intro c f hw h
  cases h
  exact ⟨of_decide_eq_true hw, rfl⟩

theorem EncodedFrame.rsv5 (lo : Nibble) (rest : List Byte) : EncodedFrame.Statement (.rsv5 lo rest) := by
  intro c f hw h
  cases h
  exact ⟨of_decide_eq_true hw, rfl⟩

theorem EncodedFrame.rsv6 (lo : Nibble) (rest : List Byte) : EncodedFrame.Statement (.rsv6 lo rest) := by
  intro c f hw h
  cases h
  exact ⟨of_decide_eq_true hw, rfl⟩

theorem EncodedFrame.rsv7 (lo : Nibble) (rest : List Byte) : EncodedFrame.Statement (.rsv7 lo rest) := by
  intro c f hw h
  cases h
  exact ⟨of_decide_eq_true hw, rfl⟩

theorem EncodedFrame.rsv8 (lo : Nibble) (rest : List Byte) : EncodedFrame.Statement (.rsv8 lo rest) := by
  intro c f hw h
  cases h
  exact ⟨of_decide_eq_true hw, rfl⟩

theorem EncodedFrame.rsv9 (lo : Nibble) (rest : List Byte) : EncodedFrame.Statement (.rsv9 lo rest) := by
  intro c f hw h
  cases h
  exact ⟨of_decide_eq_true hw, rfl⟩

theorem EncodedFrame.rsvA (lo : Nibble) (rest : List Byte) : EncodedFrame.Statement (.rsvA lo rest) := by
  intro c f hw h
  cases h
  exact ⟨of_decide_eq_true hw, rfl⟩

theorem EncodedFrame.rsvB (lo : Nibble) (rest : List Byte) : EncodedFrame.Statement (.rsvB lo rest) := by
  intro c f hw h
  cases h
  exact ⟨of_decide_eq_true hw, rfl⟩

theorem EncodedFrame.rsvC (lo : Nibble) (rest : List Byte) : EncodedFrame.Statement (.rsvC lo rest) := by
  intro c f hw h
  cases h
  exact ⟨of_decide_eq_true hw, rfl⟩

theorem EncodedFrame.rsvD (lo : Nibble) (rest : List Byte) : EncodedFrame.Statement (.rsvD lo rest) := by
  intro c f hw h
  cases h
  exact ⟨of_decide_eq_true hw, rfl⟩

theorem EncodedFrame.rsvE (lo : Nibble) (rest : List Byte) : EncodedFrame.Statement (.rsvE lo rest) := by
  intro c f hw h
  cases h
  exact ⟨of_decide_eq_true hw, rfl⟩

theorem EncodedFrame.rsvF (lo : Nibble) (rest : List Byte) : EncodedFrame.Statement (.rsvF lo rest) := by
  intro c f hw h
  cases h
  exact ⟨of_decide_eq_true hw, rfl⟩

theorem EncodedFrame.reset : EncodedFrame.Statement .reset := by
  intro c f _ h
  cases h

theorem EncodedFrame.update (frame : List Byte) : EncodedFrame.Statement (.update frame) := by
  intro c f hw h
  cases h
  exact ⟨of_decide_eq_true hw, rfl⟩

theorem EncodedFrame.ready : EncodedFrame.Statement .ready := by
  intro c f _ h
  cases h

theorem EncodedFrame.data : EncodedFrame.Statement .data := by
  intro c f _ h
  cases h

end Sys2Proof.Laws
end

