-- ==== Sys2Proof/Laws/Ports.lean ====
section
/-! SUPPORT. The laws of the port binding. -/

namespace Sys2Proof.Machine

/-- `frameLenWidth` bits are the fewest that carry every number up to `FRAME_CAP` (R124). -/
theorem frameLenWidth_le_iff (n w : Nat) : frameLenWidth n ≤ w ↔ n < 2 ^ w :=
  Nat.clog_le_iff_le_pow Nat.one_lt_two

/-- Every frame length inside the contract fits the port (R124). -/
theorem lt_two_pow_frameLenWidth {n frameCap : Nat} (h : n ≤ frameCap) : n < 2 ^ frameLenWidth frameCap :=
  Nat.lt_of_le_of_lt h ((frameLenWidth_le_iff frameCap _).1 (Nat.le_refl _))

/-- A request at the frame port inside the contract is the UPDATE of the lanes below `frame_len` (R125). -/
theorem PortsIn.operation_update {p : PortsIn} {c : Config} (hr : p.rst = false) (hv : p.frameValid = true)
    (hn : p.frameLen ≤ c.frameCap) : p.operation c = .ok (some (.update (p.frameData.take p.frameLen))) := by
  simp only [PortsIn.operation, hr, hv, if_neg (Nat.not_lt.2 hn)]

/-- A `frame_len` above `FRAME_CAP` is refused (D4). -/
theorem PortsIn.operation_tooLong {p : PortsIn} {c : Config} (hr : p.rst = false) (hv : p.frameValid = true)
    (hn : c.frameCap < p.frameLen) : p.operation c = .error .frameTooLong := by
  simp only [PortsIn.operation, hr, hv, if_pos hn]

end Sys2Proof.Machine
end

