-- ==== Sys2Proof/Laws/WriteControl.lean ====
section
/-! SUPPORT. R94's columns: the write-control quantities of each row the decoder reads, accepted or not. -/

namespace Sys2Proof.Machine

/-- `we` is the write enable for every frame, those without a column included. -/
theorem writeControl_we (s : State) (f : List Byte) : (writeControl s f).we = writeEnable s f := by
  cases f with
  | nil => rfl
  | cons b0 rest =>
    simp only [writeControl]
    split
    · rfl
    · rfl
    · rfl
    · rename_i h0 h1 h2
      simp only [writeEnable, classify, WriteControl.idle]
      split <;> rename_i ht <;> split at ht <;> simp_all [classifyReserved, classifyFlowControl]

/-- The SF column. -/
theorem writeControl_of_sf {s : State} {f : List Byte} {L : Nibble} {rest : List Byte}
    (h : decodeFrame f = .sf L rest) :
    writeControl s f = { clr := true, srcOff := 1, nWr := L.toNat, we := writeEnable s f } := by
  unfold decodeFrame at h
  split at h
  · cases h
  · simp only at h
    split at h <;> first | cases h | (split at h <;> cases h)
    rename_i ht
    simp only [writeControl, ht]

/-- The FF column; `frame_len - 2` is the length of the chunk. -/
theorem writeControl_of_ff {s : State} {f : List Byte} {total : Length} {chunk : List Byte}
    (h : decodeFrame f = .ff total chunk) :
    writeControl s f = { clr := true, srcOff := 2, nWr := chunk.length, we := writeEnable s f } := by
  unfold decodeFrame at h
  split at h
  · cases h
  · simp only at h
    split at h <;> first | cases h | (split at h <;> cases h)
    rename_i ht _ _
    simp only [writeControl, ht, List.length_cons, Nat.add_sub_cancel]

/-- The CF column. -/
theorem writeControl_of_cf {s : State} {f : List Byte} {sn : Nibble} {payload : List Byte}
    (h : decodeFrame f = .cf sn payload) :
    writeControl s f =
      { clr := false, srcOff := 1, nWr := min payload.length s.remaining, we := writeEnable s f } := by
  unfold decodeFrame at h
  split at h
  · cases h
  · simp only at h
    split at h <;> first | cases h | (split at h <;> cases h)
    rename_i ht
    simp only [writeControl, ht]

end Sys2Proof.Machine
end

