-- ==== Sys2Proof/Tests/Slice0.lean ====
section
/-! SUPPORT. The model's own tests: ill-formed terms the check refuses, words written out from the spec's encodings
that decode to their rows, single steps with the results of spec/95_test_vectors.md, and for every statement with
hypotheses a concrete case that meets them. -/

namespace Sys2Proof.Tests

open Sys2Proof.Machine

/-! ### States and results in the notation of spec/95_test_vectors.md -/

/-- `<state; buf_len; expected_total_opt; expected_sequence; buffer>` on an instance with `FRAME_CAP = 8`. -/
def machine (capacity : Length) (p : Phase) (total : Option Length) (sn : Nibble) (bytes : List Byte) : State :=
  { State.construct { capacity := capacity, frameCap := 8 } with
    state := p
    bufLen := BitVec.ofNat 12 bytes.length
    buf := Memory.writeBytes [] 0 bytes
    totalValid := total.isSome
    expectedTotal := total.getD 0#12
    expectedSequence := sn }

/-- What a vector's row says of a step: the state in the same notation, and what the operation returned. -/
structure View where
  state : Phase
  bufLen : Length
  total : Option Length
  sequence : Nibble
  buffer : List Byte
  output : Option Observation
deriving DecidableEq, Repr

def view (o : Host.Outcome State Fault Refusal) : Option View :=
  match o with
  | .next t => some ⟨t.state, t.bufLen, t.expectedTotalOpt, t.expectedSequence, t.buffer, t.output⟩
  | .fault _ => none
  | .refused _ => none

/-- One whole step with one operation issued. -/
def issue (op : HostOp) (s : State) : Option View := view (step { s with pending := [op] })

/-- `S0` with the reference parameters. -/
def s0 : State := State.reset
/-- `S0`, `CAPACITY = 4`. -/
def s0Small : State := machine 4#12 .idle none 0#4 []
/-- `S0`, `CAPACITY = 64`. -/
def s0Mid : State := machine 64#12 .idle none 0#4 []
/-- `<RECEIVING; 6; Some(20); 1; 01 02 03 04 05 06>`. -/
def recv20 : State := machine 4095#12 .receiving (some 20#12) 1#4 [1#8, 2#8, 3#8, 4#8, 5#8, 6#8]
/-- `<RECEIVING; 6; Some(10); 1; B0 B1 B2 B3 B4 B5>`. -/
def recv10 : State := machine 4095#12 .receiving (some 10#12) 1#4 [0xB0#8, 0xB1#8, 0xB2#8, 0xB3#8, 0xB4#8, 0xB5#8]
/-- `<RECEIVING; 2; Some(4); 1; 09 09>`, `CAPACITY = 4`. -/
def recv4 : State := machine 4#12 .receiving (some 4#12) 1#4 [9#8, 9#8]
/-- `<COMPLETE; 3; Some(3); 0; DE AD BE>`. -/
def comp3 : State := machine 4095#12 .complete (some 3#12) 0#4 [0xDE#8, 0xAD#8, 0xBE#8]
/-- `<COMPLETE; 4; Some(4); 0; 01 02 03 04>`, `CAPACITY = 4`. -/
def comp4 : State := machine 4#12 .complete (some 4#12) 0#4 [1#8, 2#8, 3#8, 4#8]
/-- Registers that no run reaches: `buf_len` above `CAPACITY` in `COMPLETE`. -/
def brokenComplete : State := { comp4 with bufLen := 5#12, expectedTotal := 5#12 }
/-- Registers that no run reaches: `expected_total` above `CAPACITY` in `RECEIVING`. -/
def brokenReceiving : State := { recv4 with expectedTotal := 10#12 }

/-! ### WellFormed: an ill-formed term of every form, which the check refuses (R50) -/

/-- Eight bytes after the type byte make nine, one more than `FRAME_CAP = 8`. -/
def eight : List Byte := List.replicate 8 0#8

theorem test_wf_refuses_long_frames :
    [Instr.sf 0#4 eight, .cf 0#4 eight, .fc 0#4 eight, .rsv4 0#4 eight, .rsv5 0#4 eight, .rsv6 0#4 eight,
      .rsv7 0#4 eight, .rsv8 0#4 eight, .rsv9 0#4 eight, .rsvA 0#4 eight, .rsvB 0#4 eight, .rsvC 0#4 eight,
      .rsvD 0#4 eight, .rsvE 0#4 eight, .rsvF 0#4 eight, .ff 9#12 (eight.drop 1), .update (0#8 :: eight)].all
      (fun i => !i.wf Config.reference) = true := by decide

theorem test_wf_accepts_full_frames :
    [Instr.sf 7#4 (eight.drop 1), .ff 9#12 (eight.drop 2), .cf 1#4 (eight.drop 1), .update eight, .reset, .ready,
      .data].all (fun i => i.wf Config.reference) = true := by decide

theorem test_decode_refuses_long_frame :
    decode Config.reference (.update (0x00#8 :: eight)) = .error .frameTooLong := by rfl

/-- An `update` whose frame has a row of its own is not the decoder's spelling; the two frames without a row are. -/
theorem test_canonical :
    (Instr.update [0x00#8]).canonical = false ∧ (Instr.update []).canonical = true ∧
      (Instr.update [0x1F#8]).canonical = true := by decide

/-! ### Decode: one word per row, written from R53 to R56 and R59 -/

theorem test_decode_sf : decodeFrame [0b0000_0111#8, 0x99#8] = .sf 7#4 [0x99#8] := by decide
theorem test_decode_ff : decodeFrame [0b0001_0010#8, 0b0011_0100#8, 0xAB#8] = .ff 0x234#12 [0xAB#8] := by decide
theorem test_decode_cf : decodeFrame [0b0010_1111#8, 0x68#8] = .cf 15#4 [0x68#8] := by decide
theorem test_decode_fc : decodeFrame [0b0011_1111#8, 0x00#8] = .fc 15#4 [0x00#8] := by decide
theorem test_decode_rsv4 : decodeFrame [0b0100_0001#8] = .rsv4 1#4 [] := by decide
theorem test_decode_rsv5 : decodeFrame [0b0101_0010#8] = .rsv5 2#4 [] := by decide
theorem test_decode_rsv6 : decodeFrame [0b0110_0011#8] = .rsv6 3#4 [] := by decide
theorem test_decode_rsv7 : decodeFrame [0b0111_0100#8] = .rsv7 4#4 [] := by decide
theorem test_decode_rsv8 : decodeFrame [0b1000_0101#8] = .rsv8 5#4 [] := by decide
theorem test_decode_rsv9 : decodeFrame [0b1001_0110#8] = .rsv9 6#4 [] := by decide
theorem test_decode_rsvA : decodeFrame [0b1010_0111#8] = .rsvA 7#4 [] := by decide
theorem test_decode_rsvB : decodeFrame [0b1011_1000#8] = .rsvB 8#4 [] := by decide
theorem test_decode_rsvC : decodeFrame [0b1100_1001#8] = .rsvC 9#4 [] := by decide
theorem test_decode_rsvD : decodeFrame [0b1101_1010#8] = .rsvD 10#4 [] := by decide
theorem test_decode_rsvE : decodeFrame [0b1110_1011#8] = .rsvE 11#4 [] := by decide
theorem test_decode_rsvF : decodeFrame [0b1111_1100#8, 0x01#8] = .rsvF 12#4 [0x01#8] := by decide
theorem test_decode_no_row : decodeFrame [] = .update [] ∧ decodeFrame [0b0001_0000#8] = .update [0x10#8] := by decide

theorem test_decode_host_operations :
    decode Config.reference .reset = .ok .reset ∧ decode Config.reference .ready = .ok .ready ∧
      decode Config.reference .data = .ok .data := ⟨rfl, rfl, rfl⟩

/-- Byte 0 stands in bits 7..0 and byte 1 in bits 15..8 of an opcode-table word; the lanes above are 0. -/
theorem test_table_word :
    decodeTableWord 16 0x3412 = some (.ff 0x234#12 (List.replicate 6 0#8)) ∧
      decodeTableWord 8 0x21 = some (.cf 1#4 (List.replicate 7 0#8)) := by decide

/-- An issued table word runs as the next step: V-FC-1. -/
theorem test_withFetchWord_runs :
    view (step (s0.withFetchWord 8 0x30)) =
      some ⟨.idle, 0#12, none, 0#4, [], some (.response (.err .unsupported))⟩ := by decide

/-! ### Steps with the results of spec/95_test_vectors.md -/

/-- E1, step 1. -/
theorem test_sf_E1 :
    issue (.update [0x07#8, 0x99#8, 0xAA#8, 0xBB#8, 0xCC#8, 0xDD#8, 0xEE#8, 0xFF#8]) s0 =
      some ⟨.complete, 7#12, some 7#12, 0#4, [0x99#8, 0xAA#8, 0xBB#8, 0xCC#8, 0xDD#8, 0xEE#8, 0xFF#8],
        some (.response (.okSome 7#12))⟩ := by decide

/-- V-SF-12. -/
theorem test_sf_overflow_aborts :
    issue (.update [0x05#8, 1#8, 2#8, 3#8, 4#8, 5#8]) recv4 =
      some ⟨.idle, 0#12, none, 0#4, [], some (.response (.err .overflow))⟩ := by decide

/-- V-FF-2. -/
theorem test_ff_longest :
    issue (.update [0x1F#8, 0xFF#8, 1#8, 2#8, 3#8, 4#8, 5#8, 6#8]) s0 =
      some ⟨.receiving, 6#12, some 4095#12, 1#4, [1#8, 2#8, 3#8, 4#8, 5#8, 6#8],
        some (.response (.okSome 4095#12))⟩ := by decide

/-- V-FF-10. -/
theorem test_ff_overflow_keeps_message :
    issue (.update [0x10#8, 0x03#8, 1#8, 2#8, 3#8, 4#8, 5#8, 6#8]) comp3 =
      some ⟨.complete, 3#12, some 3#12, 0#4, [0xDE#8, 0xAD#8, 0xBE#8], some (.response (.err .overflow))⟩ := by decide

/-- V-CF-5. -/
theorem test_cf_drops_excess :
    issue (.update [0x21#8, 0xB6#8, 0xB7#8, 0xB8#8, 0xB9#8, 0xBA#8, 0xBB#8, 0xBC#8]) recv10 =
      some ⟨.complete, 10#12, some 10#12, 2#4,
        [0xB0#8, 0xB1#8, 0xB2#8, 0xB3#8, 0xB4#8, 0xB5#8, 0xB6#8, 0xB7#8, 0xB8#8, 0xB9#8],
        some (.response .okNone)⟩ := by decide

/-- V-CF-8's wrap of the sequence nibble, on a shorter transfer. -/
theorem test_cf_sequence_wraps :
    issue (.update [0x2F#8, 0x68#8]) { recv20 with expectedSequence := 15#4 } =
      some ⟨.receiving, 7#12, some 20#12, 0#4, [1#8, 2#8, 3#8, 4#8, 5#8, 6#8, 0x68#8],
        some (.response .okNone)⟩ := by decide

/-- V-FC-2. -/
theorem test_fc_keeps_transfer :
    issue (.update [0x30#8, 0x00#8, 0x00#8]) recv20 =
      some ⟨.receiving, 6#12, some 20#12, 1#4, [1#8, 2#8, 3#8, 4#8, 5#8, 6#8],
        some (.response (.err .unsupported))⟩ := by decide

/-- V-CL-2 to V-CL-4, the state unchanged. -/
theorem test_reserved_types :
    [0x40#8, 0x4F#8, 0x50#8, 0x60#8, 0x70#8, 0x80#8, 0x90#8, 0xA0#8, 0xB0#8, 0xC0#8, 0xD0#8, 0xE0#8, 0xFF#8].all
      (fun b => decide (issue (.update [b]) comp3 = some ⟨.complete, 3#12, some 3#12, 0#4, [0xDE#8, 0xAD#8, 0xBE#8],
        some (.response (.err .unknownFrameType))⟩)) = true := by decide

/-- V-CL-1 and V-FF-4, given to UPDATE as raw frames. -/
theorem test_update_malformed :
    view (exec (.update []) recv4) = some ⟨.receiving, 2#12, some 4#12, 1#4, [9#8, 9#8],
        some (.response (.err .malformedFrame))⟩ ∧
      view (exec (.update [0x10#8]) recv4) = view (exec (.update []) recv4) := by decide

/-- P4, step 9: UPDATE on a raw frame that has a row. -/
theorem test_update_raw_single :
    view (exec (.update [0x03#8, 0xDE#8, 0xAD#8, 0xBE#8, 0xEF#8]) recv20) =
      some ⟨.complete, 3#12, some 3#12, 0#4, [0xDE#8, 0xAD#8, 0xBE#8], some (.response (.okSome 3#12))⟩ := by decide

/-- V-HOST-5. -/
theorem test_reset_abandons_transfer :
    issue .reset recv10 = some ⟨.idle, 0#12, none, 0#4, [], none⟩ := by decide

/-- V-HOST-2 and V-HOST-4. -/
theorem test_ready :
    (issue .ready recv10).map View.output = some (some (.ready false)) ∧
      (issue .ready (machine 4095#12 .complete (some 0#12) 0#4 [])).map View.output = some (some (.ready true)) := by
  decide

/-- V-HOST-2. -/
theorem test_data_hides_partial : (issue .data recv10).map View.output = some (some (.data none)) := by decide

/-- V-HOST-4 and V-FF-10's message. -/
theorem test_data_complete :
    (issue .data (machine 4095#12 .complete (some 0#12) 0#4 [])).map View.output = some (some (.data (some []))) ∧
      (issue .data comp3).map View.output = some (some (.data (some [0xDE#8, 0xAD#8, 0xBE#8]))) := by decide

/-- V-BUF-3 and V-BUF-5: the test is on the exact sum. -/
theorem test_append_exact_sum :
    s0Small.bufAppend [1#8, 2#8, 3#8, 4#8, 5#8] = none ∧
      State.bufAppend { s0 with bufLen := 4090#12 } (List.replicate 7 0#8) = none := by decide

/-- V-BUF-2 and V-BUF-4. -/
theorem test_append_fills :
    (s0Small.bufAppend [1#8, 2#8, 3#8, 4#8]).map State.bufLen = some 4#12 ∧
      (State.bufAppend { s0 with bufLen := 4095#12 } []).map State.bufLen = some 4095#12 := by decide

/-- R94's columns on frames the classifier rejects, V-SF-5 and V-FF-5: only `we` is 0. -/
theorem test_write_control_rejected :
    writeControl s0 [0x03#8, 0xAA#8, 0xBB#8] = { clr := true, srcOff := 1, nWr := 3, we := false } ∧
      writeControl s0Mid [0x10#8, 0x41#8] = { clr := true, srcOff := 2, nWr := 0, we := false } := by decide

/-- R94's CF column on V-CF-5: four of seven bytes. -/
theorem test_write_control_cf :
    writeControl recv10 [0x21#8, 0xB6#8, 0xB7#8, 0xB8#8, 0xB9#8, 0xBA#8, 0xBB#8, 0xBC#8] =
      { clr := false, srcOff := 1, nWr := 4, we := true } := by decide

/-- V-HOST-7 and V-HOST-8. -/
theorem test_read_port :
    [0#12, 1#12, 2#12, 3#12].map comp3.rdByte = [0xDE#8, 0xAD#8, 0xBE#8, 0x00#8] ∧ comp3.dataLen = 3#12 ∧
      recv10.dataValid = false ∧ recv10.dataLen = 0#12 ∧ recv10.rdByte 0#12 = 0x00#8 := by decide

/-- Response encodings at the port: `Ok(Some(4095))` and `Err(Unsupported)`. -/
theorem test_response_port :
    ((s0.respond (.okSome 4095#12)).portsOut 0#12).respKind = 0b01#2 ∧
      ((s0.respond (.okSome 4095#12)).portsOut 0#12).respSize = 0xFFF#12 ∧
      ((s0.respond (.err .unsupported)).portsOut 0#12).respErr = 8#4 := by decide

theorem test_reset_memory_wf : Memory.wf State.reset.buf := by decide

/-! ### Witnesses: states in the invariant -/

theorem witness_ConstructionMeetsInvariant : ({ capacity := 0#12, frameCap := 1 } : Config).wf := by decide

theorem inv_s0 : s0.Inv :=
  ⟨by decide, by decide, by decide, fun _ => ⟨by decide, by decide, by decide, by decide, by decide, by decide, by decide⟩⟩

theorem inv_recv10 : recv10.Inv :=
  ⟨by decide, by decide, by decide, fun _ => ⟨by decide, by decide, by decide, by decide, by decide, by decide, by decide⟩⟩

theorem inv_recv4 : recv4.Inv :=
  ⟨by decide, by decide, by decide, fun _ => ⟨by decide, by decide, by decide, by decide, by decide, by decide, by decide⟩⟩

theorem inv_comp4 : comp4.Inv :=
  ⟨by decide, by decide, by decide, fun _ => ⟨by decide, by decide, by decide, by decide, by decide, by decide, by decide⟩⟩

/-! ### Witnesses: Reset -/

theorem witness_OnlyResetHasMeaningBeforeFirstReset :
    Instr.sf 0#4 [] ≠ .reset ∧ Instr.reset = .reset ∧ brokenComplete.poweredUp.initialised = false := by decide

/-! ### Witnesses: one rule per frame type -/

/-- `L` one more than the bytes that follow; and `L` as many, where the answer is not `LengthMismatch`. -/
theorem witness_RejectedFramesChangeNothing_single :
    s0.initialised = true ∧ (eight.drop 1).length + 1 ≤ s0.config.frameCap ∧ (eight.drop 1).length < (8#4).toNat ∧
      (7#4).toNat ≤ (eight.drop 1).length ∧ ∃ t, exec (.sf 7#4 (eight.drop 1)) s0 = .next t :=
  ⟨by decide, by decide, by decide, by decide, _, rfl⟩

/-- `total = CAPACITY + 1`, the frame full. -/
theorem witness_RejectedFramesChangeNothing_first :
    recv4.initialised = true ∧ (eight.drop 2).length + 1 ≤ recv4.config.frameCap ∧
      (eight.drop 2).length + 2 ≤ recv4.config.frameCap ∧ recv4.config.capacity.toNat < (5#12).toNat := by decide

theorem witness_RejectedFramesChangeNothing_consecutive :
    s0.initialised = true ∧ (eight.drop 1).length + 1 ≤ s0.config.frameCap ∧ s0.state ≠ .receiving := by decide

/-- `L = CAPACITY + 1`, in `COMPLETE`. -/
theorem witness_SingleFrameEffect_overflow_kept :
    comp4.initialised = true ∧ [1#8, 2#8, 3#8, 4#8, 5#8].length + 1 ≤ comp4.config.frameCap ∧
      (5#4).toNat ≤ [1#8, 2#8, 3#8, 4#8, 5#8].length ∧ comp4.config.capacity.toNat < (5#4).toNat ∧
      comp4.state ≠ .receiving := by decide

theorem witness_SingleFrameEffect_overflow_aborts :
    recv4.initialised = true ∧ [1#8, 2#8, 3#8, 4#8, 5#8].length + 1 ≤ recv4.config.frameCap ∧
      (5#4).toNat ≤ [1#8, 2#8, 3#8, 4#8, 5#8].length ∧ recv4.config.capacity.toNat < (5#4).toNat ∧
      recv4.state = .receiving := by decide

/-- `L = CAPACITY`, with no byte to spare; and `L = 0` with none. -/
theorem witness_SingleFrameEffect_accepted :
    (recv4.initialised = true ∧ [1#8, 2#8, 3#8, 4#8].length + 1 ≤ recv4.config.frameCap ∧
      (4#4).toNat ≤ [1#8, 2#8, 3#8, 4#8].length ∧ (4#4).toNat ≤ recv4.config.capacity.toNat) ∧
    (0#4).toNat ≤ ([] : List Byte).length := by decide

/-- The chunk one byte longer than the total, the frame full. -/
theorem witness_FirstFrameEffect_overflow_kept :
    comp3.initialised = true ∧ (eight.drop 2).length + 2 ≤ comp3.config.frameCap ∧
      (5#12).toNat ≤ comp3.config.capacity.toNat ∧ (5#12).toNat < (eight.drop 2).length ∧
      comp3.state ≠ .receiving := by decide

theorem witness_FirstFrameEffect_overflow_aborts :
    recv10.initialised = true ∧ (eight.drop 2).length + 2 ≤ recv10.config.frameCap ∧
      (5#12).toNat ≤ recv10.config.capacity.toNat ∧ (5#12).toNat < (eight.drop 2).length ∧
      recv10.state = .receiving := by decide

/-- `total = CAPACITY = 4095` with a full frame; and the chunk as long as the total. -/
theorem witness_FirstFrameEffect_accepted :
    (s0.initialised = true ∧ (eight.drop 2).length + 2 ≤ s0.config.frameCap ∧
      (4095#12).toNat ≤ s0.config.capacity.toNat ∧ (eight.drop 2).length ≤ (4095#12).toNat) ∧
    (eight.drop 2).length ≤ (6#12).toNat := by decide

theorem witness_ConsecutiveFrameEffect_mismatch :
    recv10.initialised = true ∧ (eight.drop 1).length + 1 ≤ recv10.config.frameCap ∧ recv10.state = .receiving ∧
      2#4 ≠ recv10.expectedSequence := by decide

/-- The last byte that fits: `buf_len + n = CAPACITY`; and the empty payload. -/
theorem witness_ConsecutiveFrameEffect_accepted :
    (recv4.initialised = true ∧ [7#8, 8#8].length + 1 ≤ recv4.config.frameCap ∧ recv4.state = .receiving ∧
      1#4 = recv4.expectedSequence ∧ 2 = min [7#8, 8#8].length (recv4.expectedTotal.toNat - recv4.bufLen.toNat) ∧
      recv4.bufLen.toNat + 2 ≤ recv4.config.capacity.toNat) ∧
    0 = min ([] : List Byte).length (recv4.expectedTotal.toNat - recv4.bufLen.toNat) := by decide

theorem witness_FlowControlIsUnsupported :
    recv10.initialised = true ∧ (eight.drop 1).length + 1 ≤ recv10.config.frameCap := by decide

theorem witness_ReservedTypesAreUnknown :
    recv10.initialised = true ∧ (eight.drop 1).length + 1 ≤ recv10.config.frameCap := by decide

theorem witness_MalformedFramesChangeNothing :
    recv10.initialised = true ∧ ([] : List Byte).length ≤ recv10.config.frameCap ∧
      [0x1F#8].length ≤ recv10.config.frameCap ∧ ([0x1F#8] = [] ∨ ∃ lo : Nibble, [0x1F#8] = [0x1#4 ++ lo]) :=
  ⟨by decide, by decide, by decide, .inr ⟨15#4, by decide⟩⟩

/-! ### Witnesses: UPDATE as one operation -/

/-- A frame that succeeds, one that is rejected and keeps `state`, and one that aborts. -/
theorem witness_UpdateFollowsTransitionTable :
    recv4.Inv ∧ recv4.initialised = true ∧ [0x21#8, 7#8, 8#8].length ≤ recv4.config.frameCap ∧
      (transitionTable recv4 [0x21#8, 7#8, 8#8]).2 = .okNone ∧
      transitionTable recv4 [0x30#8] = (.receiving, .err .unsupported) ∧
      transitionTable recv4 [0x22#8] = (.idle, .err .sequenceMismatch) :=
  ⟨inv_recv4, by decide, by decide, by decide, by decide, by decide⟩

theorem witness_StateArcsAreTheTables_intoIdle :
    (∃ t, exec (.cf 2#4 []) recv4 = .next t ∧ recv4.state ≠ .idle ∧ t.state = .idle) ∧
    (∃ t, exec (.sf 5#4 [1#8, 2#8, 3#8, 4#8, 5#8]) recv4 = .next t ∧ recv4.state ≠ .idle ∧ t.state = .idle) ∧
    ∃ t, exec .reset recv4 = .next t ∧ recv4.state ≠ .idle ∧ t.state = .idle :=
  ⟨⟨_, rfl, by decide, by decide⟩, ⟨_, rfl, by decide, by decide⟩, ⟨_, rfl, by decide, by decide⟩⟩

theorem witness_StateArcsAreTheTables_outOfComplete :
    ∃ t, exec (.ff 4#12 [9#8]) comp4 = .next t ∧ comp4.state = .complete ∧ t.state ≠ .complete :=
  ⟨_, rfl, by decide, by decide⟩

theorem witness_StateArcsAreTheTables_intoReceiving :
    ∃ t, exec (.update [0x10#8, 0x04#8]) s0 = .next t ∧ s0.state ≠ .receiving ∧ t.state = .receiving :=
  ⟨_, rfl, by decide, by decide⟩

theorem witness_ResponsesMatchFrameTypes_okSome :
    ∃ t, exec (.update [0x10#8, 0x02#8, 1#8, 2#8]) s0 = .next t ∧ t.output = some (.response (.okSome 2#12)) :=
  ⟨_, rfl, by decide⟩

theorem witness_ResponsesMatchFrameTypes_okNone :
    ∃ t, exec (.update [0x21#8]) recv10 = .next t ∧ t.output = some (.response .okNone) := ⟨_, rfl, by decide⟩

/-- Each of the four failures of the classifier. -/
theorem witness_ClassifierFailuresChangeNothing :
    recv4.initialised = true ∧ [0x10#8, 0x05#8].length ≤ recv4.config.frameCap ∧
      classify recv4.config.capacity [0x10#8, 0x05#8] = .error .tooLarge ∧
      classify recv4.config.capacity [] = .error .malformedFrame ∧
      classify recv4.config.capacity [0x40#8] = .error .unknownFrameType ∧
      classify recv4.config.capacity [0x01#8] = .error .lengthMismatch :=
  ⟨by decide, by decide, rfl, rfl, rfl, rfl⟩

theorem witness_FailingUpdateStoresNothing :
    (∃ t, exec (.cf 2#4 []) recv4 = .next t ∧ t.output = some (.response (.err .sequenceMismatch))) ∧
    ∃ t, exec (.fc 0#4 []) recv4 = .next t ∧ t.output = some (.response (.err .unsupported)) :=
  ⟨⟨_, rfl, by decide⟩, ⟨_, rfl, by decide⟩⟩

theorem witness_FailureEffectIsNoneOrAbort_abort :
    (∃ t, exec (.cf 2#4 []) recv4 = .next t ∧ t.output = some (.response (.err .sequenceMismatch))) ∧
    ∃ t, exec (.ff 1#12 [1#8, 2#8]) recv4 = .next t ∧ t.output = some (.response (.err .overflow)) ∧
      recv4.state = .receiving :=
  ⟨⟨_, rfl, by decide⟩, ⟨_, rfl, by decide, by decide⟩⟩

theorem witness_FailureEffectIsNoneOrAbort_none :
    ∃ t, exec (.ff 1#12 [1#8, 2#8]) comp4 = .next t ∧ t.output = some (.response (.err .overflow)) ∧
      ¬(Failure.overflow = .sequenceMismatch ∨ (Failure.overflow = .overflow ∧ comp4.state = .receiving)) :=
  ⟨_, rfl, by decide, by decide⟩

theorem witness_EveryUpdateResponds :
    recv10.Inv ∧ recv10.initialised = true ∧ (Instr.cf 1#4 (eight.drop 1)).frameLen = some 8 ∧
      8 ≤ recv10.config.frameCap :=
  ⟨inv_recv10, by decide, by decide, by decide⟩

theorem witness_LongFramesAreRefused :
    recv10.initialised = true ∧ (Instr.cf 1#4 eight).frameLen = some 9 ∧ recv10.config.frameCap < 9 := by decide

/-! ### Witnesses: READY and DATA -/

theorem witness_ReadyReportsComplete : recv10.initialised = true := by decide

/-- A full buffer: `buf_len = CAPACITY`. -/
theorem witness_DataReturnsCompleteMessage_complete :
    comp4.initialised = true ∧ comp4.state = .complete ∧ comp4.bufLen.toNat ≤ comp4.config.capacity.toNat := by decide

theorem witness_DataReturnsCompleteMessage_none : recv10.initialised = true ∧ recv10.state ≠ .complete := by decide

theorem witness_InspectionIsIdempotent :
    (∃ t, exec .ready comp4 = .next t) ∧ ∃ t, exec .data comp4 = .next t := ⟨⟨_, rfl⟩, ⟨_, rfl⟩⟩

/-- `buf_len = CAPACITY + 1`. -/
theorem witness_MissingBufferCellsFault_data :
    brokenComplete.initialised = true ∧ brokenComplete.state = .complete ∧
      brokenComplete.config.capacity.toNat < brokenComplete.bufLen.toNat := by decide

/-- One byte past the last cell. -/
theorem witness_MissingBufferCellsFault_cf :
    brokenReceiving.initialised = true ∧ brokenReceiving.state = .receiving ∧
      [1#8, 2#8, 3#8].length + 1 ≤ brokenReceiving.config.frameCap ∧
      brokenReceiving.config.capacity.toNat < brokenReceiving.bufLen.toNat +
        min [1#8, 2#8, 3#8].length (brokenReceiving.expectedTotal.toNat - brokenReceiving.bufLen.toNat) := by decide

/-! ### Witnesses: the buffer -/

/-- Up to the last cell. -/
theorem witness_MemoryPrimitivesReadAndWrite : 2 + [1#8, 2#8].length ≤ s0Small.config.capacity.toNat := by decide

theorem witness_AppendChecksThenStores_overflow :
    recv4.config.capacity.toNat < recv4.bufLen.toNat + [1#8, 2#8, 3#8].length := by decide

theorem witness_AppendChecksThenStores_stores :
    recv4.bufLen.toNat + [1#8, 2#8].length ≤ recv4.config.capacity.toNat := by decide

theorem witness_WriteControlDescribesTheWrite :
    recv4.Inv ∧ recv4.initialised = true ∧ [0x21#8, 7#8, 8#8].length ≤ recv4.config.frameCap ∧
      (writeControl recv4 [0x21#8, 7#8, 8#8]).we = true ∧ (writeControl recv4 [0x22#8]).we = false :=
  ⟨inv_recv4, by decide, by decide, by decide, by decide⟩

/-- Each of the two cases raises it, and a frame at each boundary does not. -/
theorem witness_OverflowIsDetectedExactly :
    (∃ t, exec (.update [0x05#8, 1#8, 2#8, 3#8, 4#8, 5#8]) comp4 = .next t ∧
      t.output = some (.response (.err .overflow))) ∧
    (∃ t, exec (.update [0x10#8, 0x01#8, 1#8, 2#8]) comp4 = .next t ∧
      t.output = some (.response (.err .overflow))) ∧
    (∃ t, exec (.update [0x04#8, 1#8, 2#8, 3#8, 4#8]) comp4 = .next t ∧
      t.output ≠ some (.response (.err .overflow))) ∧
    ∃ t, exec (.update [0x10#8, 0x02#8, 1#8, 2#8]) comp4 = .next t ∧
      t.output ≠ some (.response (.err .overflow)) :=
  ⟨⟨_, rfl, by decide⟩, ⟨_, rfl, by decide⟩, ⟨_, rfl, by decide⟩, ⟨_, rfl, by decide⟩⟩

theorem witness_BufferGrowsWithinTransfer :
    ∃ t, exec (.cf 1#4 [7#8]) recv4 = .next t ∧ t.state ≠ .idle ∧ ∀ n, t.output ≠ some (.response (.okSome n)) :=
  ⟨_, rfl, by decide, fun _ h => by cases h⟩

theorem witness_CompleteMessagePersists :
    ∃ t, exec (.ff 5#12 []) comp4 = .next t ∧ comp4.state = .complete ∧ Instr.ff 5#12 [] ≠ .reset ∧
      ∀ n, t.output ≠ some (.response (.okSome n)) :=
  ⟨_, rfl, by decide, by decide, fun _ h => by cases h⟩

/-! ### Witnesses: what cannot be observed -/

theorem witness_PartialDataIsNeverExposed : recv10.initialised = true ∧ recv10.state ≠ .complete := by decide

/-- Two states that differ in one cell above `buf_len`. -/
theorem sameArchitectural_stale (s : State) (op : HostOp) (h : s.bufLen.toNat = 2)
    (hb : s.buf = Memory.writeBytes [] 0 [9#8, 9#8]) :
    SameArchitectural { s with pending := [op], buf := Memory.writeBytes [] 0 [9#8, 9#8, 0xAA#8] }
      { s with pending := [op] } := by
  refine ⟨rfl, fun a ha => ?_⟩
  have ha : a < 2 := h ▸ ha
  match a, ha with
  | 0, _ => simp [State.cell, hb, Memory.read, Memory.writeBytes, Memory.write]
  | 1, _ => simp [State.cell, hb, Memory.read, Memory.writeBytes, Memory.write]

theorem witness_StaleCellsAreUnobservable_next :
    ∃ s u, SameArchitectural s u ∧ s ≠ u ∧ ∃ t, step s = .next t :=
  ⟨_, _, sameArchitectural_stale recv4 (.update [0x21#8, 7#8, 8#8]) (by decide) (by decide), by decide, _, rfl⟩

theorem witness_StaleCellsAreUnobservable_fault :
    ∃ s u, SameArchitectural s u ∧ s ≠ u ∧ step s = .fault .noSuchBufferCell :=
  ⟨_, _, sameArchitectural_stale brokenReceiving (.update [0x21#8, 7#8, 8#8, 9#8]) (by decide) (by decide),
    by decide, rfl⟩

theorem witness_StaleCellsAreUnobservable_refused :
    ∃ s u, SameArchitectural s u ∧ s ≠ u ∧ step s = .refused .frameTooLong :=
  ⟨_, _, sameArchitectural_stale recv4 (.update (0x00#8 :: eight)) (by decide) (by decide), by decide, rfl⟩

/-! ### Witnesses: decoding -/

/-- The last byte of each type's range, and the first and last of the reserved ones. -/
theorem witness_TypeNibbleSelectsTheRow :
    (0x0F#8).toNat / 16 = 0 ∧ (0x1F#8).toNat / 16 = 1 ∧ (0x2F#8).toNat / 16 = 2 ∧ (0x3F#8).toNat / 16 = 3 ∧
      4 ≤ (0x40#8).toNat / 16 ∧ 4 ≤ (0xFF#8).toNat / 16 ∧ s0.initialised = true ∧
      (eight.drop 1).length + 1 ≤ s0.config.frameCap := by decide

theorem witness_DecodeInvertsEncode :
    (Instr.ff 4095#12 (eight.drop 2)).wf Config.reference = true ∧ (Instr.ff 4095#12 (eight.drop 2)).canonical = true ∧
      (Instr.update [0x1F#8]).wf Config.reference = true ∧ (Instr.update [0x1F#8]).canonical = true := by decide

theorem witness_EncodeInvertsDecode :
    ∀ f, HostOp.update eight = .update f → f.length ≤ Config.reference.frameCap := by
  intro f h
  cases h
  decide

theorem witness_EncodeInvertsDecode_unique :
    encode (Instr.sf 0#4 (eight.drop 1)) = .update eight ∧ (Instr.sf 0#4 (eight.drop 1)).canonical = true := by decide

/-! ### Witnesses: the step -/

theorem witness_StepRunsTheOldestOperation_decoded :
    { recv10 with pending := [.update eight, .data] }.pending = .update eight :: [.data] ∧
      decode recv10.config (.update eight) = .ok (.sf 0#4 (eight.drop 1)) := ⟨rfl, rfl⟩

theorem witness_StepRunsTheOldestOperation_rejected :
    { recv10 with pending := [.update (0x00#8 :: eight)] }.pending = .update (0x00#8 :: eight) :: [] ∧
      decode recv10.config (.update (0x00#8 :: eight)) = .error .frameTooLong := ⟨rfl, rfl⟩

theorem witness_IdleStepChangesNothing : recv10.pending = [] := by decide

theorem witness_StepKeepsParameters :
    ∃ t, step { recv10 with pending := [.update [0x21#8], .data] } = .next t ∧ recv10.initialised = true :=
  ⟨_, rfl, by decide⟩

theorem witness_StepKeepsInvariant :
    ∃ s t, State.Inv s ∧ step s = .next t :=
  ⟨{ recv4 with pending := [.update [0x21#8, 7#8, 8#8]] }, _,
    ⟨inv_recv4.config_wf, inv_recv4.buf_wf, inv_recv4.buf_inside, fun _ =>
      let r := inv_recv4.regs rfl
      ⟨r.bufLen_le, r.total_le, r.total_zero, r.receiving, r.complete, r.idle, r.written⟩⟩, rfl⟩

/-- RESET from registers that break R17, before the first RESET. -/
theorem witness_StepKeepsInvariant_poweredUp :
    ∃ s t, State.Inv s ∧ s.bufLen = 5#12 ∧ s.config.capacity = 4#12 ∧ step s = .next t :=
  ⟨{ brokenComplete.poweredUp with pending := [.reset] }, _,
    ⟨by decide, by decide, by decide, fun h => absurd h (by decide)⟩, rfl, rfl, rfl⟩

theorem witness_InvariantStatesNeverFault : comp4.Inv := inv_comp4

/-! ### Witnesses: the ports -/

theorem witness_ResponsePortImages_response :
    { recv10 with output := some (.response (.err .unsupported)) }.output = some (.response (.err .unsupported)) := rfl

theorem witness_ResponsePortImages_none :
    (∃ t, exec .reset recv10 = .next t) ∧ (∃ t, exec .ready recv10 = .next t) ∧ ∃ t, exec .data recv10 = .next t :=
  ⟨⟨_, rfl⟩, ⟨_, rfl⟩, ⟨_, rfl⟩⟩

/-- The last byte of the message, and the first index past it. -/
theorem witness_DataPortCarriesData_valid :
    comp3.initialised = true ∧ comp3.bufLen.toNat ≤ comp3.config.capacity.toNat ∧ comp3.dataValid = true ∧
      (2#12).toNat < comp3.dataLen.toNat ∧ comp3.dataLen.toNat ≤ (3#12).toNat := by decide

theorem witness_DataPortCarriesData_invalid :
    recv10.initialised = true ∧ recv10.bufLen.toNat ≤ recv10.config.capacity.toNat ∧ recv10.dataValid = false := by
  decide

def portFrame (n : Nat) : PortsIn := { rst := false, frameValid := true, frameLen := n, frameData := eight }

/-- A full frame, and one lane past it; and other lanes above `frame_len`. -/
theorem witness_FramePortRequestsOneUpdate :
    ((portFrame 8).rst = false ∧ (portFrame 8).frameValid = true ∧ (portFrame 8).wf recv10.config ∧
      (portFrame 8).frameLen ≤ recv10.config.frameCap) ∧
    ((portFrame 9).wf recv10.config ∧ recv10.config.frameCap < (portFrame 9).frameLen) ∧
    [0#8, 1#8, 1#8, 1#8, 1#8, 1#8, 1#8, 1#8].length = recv10.config.frameCap ∧
    [0#8, 1#8, 1#8, 1#8, 1#8, 1#8, 1#8, 1#8].take (portFrame 1).frameLen =
      (portFrame 1).frameData.take (portFrame 1).frameLen := by decide

theorem witness_PortRequestsAreSerialised :
    ({ portFrame 8 with rst := true, frameValid := false } : PortsIn).rst = true ∧
      ({ portFrame 8 with rst := true } : PortsIn).frameValid = true ∧
      ({ portFrame 8 with frameValid := false } : PortsIn).rst = false := by decide

/-- R124: 4 bits of `frame_len` for `FRAME_CAP = 8`; R125: 9 to 15 can be expressed. -/
theorem test_frame_len_width :
    frameLenWidth 8 = 4 ∧ (portFrame 15).wf recv10.config ∧ ¬(portFrame 16).wf recv10.config := by decide

/-! ### Witnesses: transfers -/

theorem witness_SingleFrameMessageIsDelivered :
    recv4.initialised = true ∧ [1#8, 2#8, 3#8, 4#8].length + 1 ≤ recv4.config.frameCap ∧
      (4#4).toNat ≤ [1#8, 2#8, 3#8, 4#8].length ∧ (4#4).toNat ≤ recv4.config.capacity.toNat := by decide

/-- P1: a 20-byte message in three frames, from `<COMPLETE; 3; Some(3); 0; DE AD BE>`. -/
theorem witness_SegmentedTransferReassembles :
    comp3.initialised = true ∧ (20#12).toNat ≤ comp3.config.capacity.toNat ∧
      (eight.drop 2).length + 2 ≤ comp3.config.frameCap ∧
      (∀ c ∈ [eight.drop 1, eight.drop 1], c.length + 1 ≤ comp3.config.frameCap) ∧
      (eight.drop 2).length ≤ (20#12).toNat ∧
      ([eight.drop 1, eight.drop 1] ≠ [] →
        (eight.drop 2).length + [eight.drop 1, eight.drop 1].dropLast.flatten.length < (20#12).toNat) := by decide

end Sys2Proof.Tests
end

/-! ### The buffer within one transfer (spec/10_state.md rule R27) -/

namespace Sys2Proof.Machine

/-- `t` holds at least what `s` holds: `buf_len` has not decreased and every byte held by `s` is still in its cell. -/
structure State.BufferExtends (s t : State) : Prop where
  bufLen_le : s.bufLen.toNat ≤ t.bufLen.toNat
  cells : ∀ a, a < s.bufLen.toNat → t.cell a = s.cell a

/-- On the abstract view: the old `buffer` is a prefix of the new one. -/
theorem State.BufferExtends.buffer_prefix {s t : State} (h : s.BufferExtends t) : s.buffer <+: t.buffer := by
  obtain ⟨k, hk⟩ := Nat.exists_eq_add_of_le h.bufLen_le
  have hold : t.bytesFrom 0 s.bufLen.toNat = s.buffer :=
    State.bytesFrom_congr fun i hi => h.cells _ (by omega)
  have hsplit : t.buffer = t.bytesFrom 0 s.bufLen.toNat ++ t.bytesFrom (0 + s.bufLen.toNat) k := by
    rw [← State.bytesFrom_append, ← hk]
    rfl
  rw [hsplit, hold]
  exact List.prefix_append _ _

/-- Presenting a result touches neither `BUF` nor `buf_len`. -/
theorem State.bufferExtends_present (s : State) (o : Option Observation) : s.BufferExtends (s.present o) :=
  ⟨Nat.le_refl _, fun _ _ => rfl⟩

/-- A failure that does not end in `IDLE` performed no ABORT. -/
theorem State.bufferExtends_raise {s : State} {f : Failure} (h : (s.raise f).state ≠ .idle) :
    s.BufferExtends (s.raise f) := by
  rcases s.raise_cases f with ⟨-, he⟩ | ⟨-, he⟩
  · rw [he]
    exact s.bufferExtends_present _
  · simp [he] at h

/-- An accepted Consecutive Frame appends at `buf_len` and so writes no cell below it (R92, R103). -/
theorem State.bufferExtends_continued {s : State} {payload : List Byte}
    (h : s.bufLen.toNat + (s.wanted payload).length ≤ s.config.capacity.toNat) :
    s.BufferExtends (s.continued payload) where
  bufLen_le := (Nat.le_add_right _ _).trans_eq (State.appended_bufLen h).symm
  cells _ ha := s.appended_cell_outside (.inl ha)

/-- Of the ways an UPDATE takes effect, those that can shorten or overwrite the buffer either open a transfer or
ABORT. -/
theorem State.Transported.bufferExtends {s t : State} {r : Classified} (h : s.Transported t r)
    (hidle : t.state ≠ .idle) (hnew : ∀ n, t.output ≠ some (.response (.okSome n))) : s.BufferExtends t := by
  cases h with
  | rejected _ ht | overflow _ ht | unexpected _ ht | mismatch _ _ ht =>
    subst ht
    exact State.bufferExtends_raise hidle
  | single _ ht | first _ _ ht =>
    subst ht
    exact absurd (State.respond_output _ _) (hnew _)
  | continued _ hfits ht =>
    subst ht
    obtain ⟨hlen, hcells⟩ := State.bufferExtends_continued hfits
    exact ⟨hlen, hcells⟩

/-- The buffer only grows along any instruction that neither ends in `IDLE` nor opens a transfer. -/
theorem exec_bufferExtends {i : Instr} {s t : State} (h : exec i s = .next t) (hidle : t.state ≠ .idle)
    (hnew : ∀ n, t.output ≠ some (.response (.okSome n))) : s.BufferExtends t := by
  rcases exec_next h with ⟨r, -, -, ht⟩ | ⟨-, rfl⟩ | ⟨-, -, rfl⟩ | ⟨-, -, -, -, rfl⟩ | ⟨-, -, -, rfl⟩
  case inl => exact ht.bufferExtends hidle hnew
  case inr.inl => exact absurd rfl hidle
  all_goals exact s.bufferExtends_present _

/-- Settles O28: only ABORT, RESET and an accepted SF or FF move the write pointer back, and the premises exclude
each of them. -/
theorem bufferGrowsWithinTransfer : Obligations.BufferGrowsWithinTransfer := by
  intro i s t h hidle hnew
  have hext := exec_bufferExtends h hidle hnew
  exact ⟨hext.bufLen_le, hext.cells, hext.buffer_prefix⟩

end Sys2Proof.Machine

/-! ### The type nibble selects the row (spec/30_encoding.md rule R51, rule R52) -/

namespace Sys2Proof.Machine

theorem decodeFrame_of_single {b0 : Byte} (h : b0.toNat / 16 = 0) (rest : List Byte) :
    decodeFrame (b0 :: rest) = .sf (lowNibble b0) rest := by
  simp [decodeFrame, typeNibble_toNat, h]

theorem decodeFrame_of_first {b0 : Byte} (h : b0.toNat / 16 = 1) (b1 : Byte) (payload : List Byte) :
    decodeFrame (b0 :: b1 :: payload) = .ff (joinLength (lowNibble b0) b1) payload := by
  simp [decodeFrame, typeNibble_toNat, h]

theorem decodeFrame_of_consecutive {b0 : Byte} (h : b0.toNat / 16 = 2) (rest : List Byte) :
    decodeFrame (b0 :: rest) = .cf (lowNibble b0) rest := by
  simp [decodeFrame, typeNibble_toNat, h]

theorem decodeFrame_of_flowControl {b0 : Byte} (h : b0.toNat / 16 = 3) (rest : List Byte) :
    decodeFrame (b0 :: rest) = .fc (lowNibble b0) rest := by
  simp [decodeFrame, typeNibble_toNat, h]

/-- The classifier fails on every type above the four of R52 (R77). -/
theorem classify_of_reserved {b0 : Byte} (h : 4 ≤ b0.toNat / 16) (capacity : Length) (rest : List Byte) :
    classify capacity (b0 :: rest) = .error .unknownFrameType := by
  rw [← typeNibble_toNat] at h
  simp only [classify]
  split
  case h_5 => rfl
  all_goals omega

/-- Running the row decoded from a frame is one UPDATE of the frame's length with the frame's classification (R100). -/
theorem exec_decodeFrame (f : List Byte) (s : State) :
    exec (decodeFrame f) s = s.updateWith f.length (classify s.config.capacity f) := by
  obtain ⟨n, hlen, hexec⟩ := exec_of_classified (decodeFrame_classified s.config.capacity f)
  rw [decodeFrame_frameLen, Option.some.injEq] at hlen
  rw [hexec, hlen]

/-- A frame of a reserved type is answered `UnknownFrameType`, which performs no ABORT (R142, R150). -/
theorem exec_decodeFrame_of_reserved {b0 : Byte} {rest : List Byte} {s : State} (h : 4 ≤ b0.toNat / 16)
    (hi : s.initialised = true) (hn : (b0 :: rest).length ≤ s.config.frameCap) :
    exec (decodeFrame (b0 :: rest)) s = .next (s.respond (.err .unknownFrameType)) := by
  rw [exec_decodeFrame, classify_of_reserved h, State.updateWith_of_accepted hi hn]
  exact congrArg _ (State.raise_of_keeps rfl)

/-- Settles O33: the fields of byte 0 are its quotient and remainder by 16, each type value has its own decoder
equation, and the classifier refuses the reserved types. -/
theorem typeNibbleSelectsTheRow : Obligations.TypeNibbleSelectsTheRow := by
  intro b0 rest
  refine ⟨typeNibble_toNat b0, lowNibble_toNat b0, fun h => ?single, fun b1 payload h hrest => ?first,
    fun h => ?consecutive, fun h => ?flowControl, fun h s hi hn => ?reserved⟩
  case single => exact ⟨_, decodeFrame_of_single h rest, lowNibble_toNat b0⟩
  case first =>
    subst hrest
    exact ⟨_, decodeFrame_of_first h b1 payload, by rw [joinLength_toNat, lowNibble_toNat]⟩
  case consecutive => exact ⟨_, decodeFrame_of_consecutive h rest, lowNibble_toNat b0⟩
  case flowControl => exact ⟨_, decodeFrame_of_flowControl h rest, lowNibble_toNat b0⟩
  case reserved => exact exec_decodeFrame_of_reserved h hi hn

end Sys2Proof.Machine

/-! ### The response of UPDATE (spec/42_update_frames.md rule R104, rule R107) -/

namespace Sys2Proof.Machine

/-- What a frame that the classifier accepts decodes to, one case per PCI variant (R70, R73 to R76). -/
inductive AcceptedRow (f : List Byte) : Pci × List Byte → Prop where
  | single {L : Nibble} {rest : List Byte} (h : decodeFrame f = .sf L rest) :
      AcceptedRow f (.single L, rest.take L.toNat)
  | first {total : Length} {chunk : List Byte} (h : decodeFrame f = .ff total chunk) :
      AcceptedRow f (.first total, chunk)
  | consecutive {sn : Nibble} {payload : List Byte} (h : decodeFrame f = .cf sn payload) :
      AcceptedRow f (.consecutive sn, payload)
  | flowControl {lo : Nibble} {rest : List Byte} (h : decodeFrame f = .fc lo rest) :
      AcceptedRow f (.flowControl, [])

/-- The inversion lemma of the classifier: it accepts only frames of the four types of R52, and its PCI names the row
that the decoder reads. -/
theorem classify_ok {capacity : Length} {f : List Byte} {r : Pci × List Byte} (h : classify capacity f = .ok r) :
    AcceptedRow f r := by
  rcases f with - | ⟨b0, rest⟩
  · cases h
  simp only [classify] at h
  split at h <;> rename_i htype
  case h_1 =>
    rw [classifySingle] at h
    split at h <;> cases h
    exact .single (decodeFrame_of_single (typeNibble_toNat b0 ▸ htype) rest)
  case h_2 =>
    rcases rest with - | ⟨b1, payload⟩
    · cases h
    simp only [classifyFirst] at h
    split at h <;> cases h
    exact .first (decodeFrame_of_first (typeNibble_toNat b0 ▸ htype) b1 payload)
  case h_3 =>
    cases h
    exact .consecutive (decodeFrame_of_consecutive (typeNibble_toNat b0 ▸ htype) rest)
  case h_4 =>
    cases h
    exact .flowControl (decodeFrame_of_flowControl (typeNibble_toNat b0 ▸ htype) rest)
  case h_5 => cases h

theorem phaseAfter_eq_complete {held total : Nat} : phaseAfter held total = .complete ↔ held = total := by
  unfold phaseAfter
  split <;> simp [*]

/-- Settles O14: every way an UPDATE takes effect presents one response; only the cases of an accepted Single or First
Frame present `Ok(Some(n))`, only that of an accepted Consecutive Frame `Ok(None)`, and the classifier's inversion
names the row. -/
theorem responsesMatchFrameTypes : Obligations.ResponsesMatchFrameTypes := by
  intro f s t h
  obtain ⟨-, -, htrans⟩ := State.updateWith_next h
  generalize hclass : classify s.config.capacity f = r at htrans
  cases htrans with
  | rejected _ ht | overflow _ ht | unexpected _ ht | mismatch _ _ ht =>
    subst ht
    exact ⟨_, s.raise_output _, nofun, nofun⟩
  | @single L payload _ ht =>
    subst ht
    refine ⟨.okSome (L.setWidth 12), State.respond_output _ _, fun n hn => ?_, nofun⟩
    cases hn
    cases classify_ok hclass with
    | single hrow => exact .inl ⟨L, _, hrow, rfl, rfl⟩
  | @first total chunk _ _ ht =>
    subst ht
    refine ⟨.okSome total, State.respond_output _ _, fun n hn => ?_, nofun⟩
    cases hn
    cases classify_ok hclass with
    | first hrow => exact .inr ⟨chunk, hrow, phaseAfter_eq_complete⟩
  | @continued payload _ _ ht =>
    subst ht
    refine ⟨.okNone, State.respond_output _ _, nofun, fun _ => ?_⟩
    cases classify_ok hclass with
    | consecutive hrow => exact ⟨_, payload, hrow⟩

/-- Settles O8: the classifier accepts every Flow-Control frame, and `Unsupported` performs no ABORT in any state
(R150). -/
theorem flowControlIsUnsupported : Obligations.FlowControlIsUnsupported := by
  intro lo rest s hi hn
  calc exec (.fc lo rest) s
      = s.updateWith (rest.length + 1) classifyFlowControl := rfl
    _ = s.transport classifyFlowControl := State.updateWith_of_accepted hi hn _
    _ = .next (s.raise .unsupported) := rfl
    _ = .next (s.respond (.err .unsupported)) := congrArg _ (State.raise_of_keeps rfl)

end Sys2Proof.Machine

/-! ### READY and DATA (spec/43_host_ops.md rule R120, rule R121, rule R123) -/

namespace Sys2Proof.Machine

theorem State.buffer_getElem? (s : State) {i : Nat} (h : i < s.bufLen.toNat) : s.buffer[i]? = some (s.readByte i) := by
  have hi : i < s.buffer.length := by rwa [s.buffer_length]
  calc s.buffer[i]?
      = some s.buffer[i] := List.getElem?_eq_getElem hi
    _ = some (s.readByte (0 + i)) := congrArg some (s.bytesFrom_getElem hi)
    _ = some (s.readByte i) := by rw [Nat.zero_add]

theorem State.bufSlice_of_fits {s : State} (h : s.bufLen.toNat ≤ s.config.capacity.toNat) :
    s.bufSlice = some s.buffer :=
  if_pos (by rwa [Nat.zero_add])

theorem exec_ready {s : State} (hi : s.initialised = true) :
    exec .ready s = .next (s.present (some (.ready s.ready))) := by
  simp [exec, execReady, hi]

theorem exec_data_of_complete {s : State} (hi : s.initialised = true) (hs : s.state = .complete)
    (hcap : s.bufLen.toNat ≤ s.config.capacity.toNat) :
    exec .data s = .next (s.present (some (.data (some s.buffer)))) := by
  simp [exec, execData, hi, hs, State.bufSlice_of_fits hcap]

theorem exec_data_of_not_complete {s : State} (hi : s.initialised = true) (hs : s.state ≠ .complete) :
    exec .data s = .next (s.present (some (.data none))) := by
  simp [exec, execData, hi, hs]

/-- Settles O21: in `COMPLETE` the bytes are the abstract view `buffer`, whose byte `i` is `BUF[i]`. -/
theorem dataReturnsCompleteMessage : Obligations.DataReturnsCompleteMessage := by
  intro s hi
  refine ⟨fun hs hcap => ?complete, fun hs => ?elsewhere⟩
  case complete => exact ⟨s.buffer, exec_data_of_complete hi hs hcap, s.buffer_length, fun _ => s.buffer_getElem?⟩
  case elsewhere => exact exec_data_of_not_complete hi hs

/-- Settles O20: `ready` is the comparison of `state` with `COMPLETE` (R16), and READY presents it. -/
theorem readyReportsComplete : Obligations.ReadyReportsComplete :=
  fun _ hi => exec_ready hi

/-- Settles O22: both operations only present a result, and the registers and cells the result is read from are those
of the state before; the same meaning therefore applies to the state that holds the result. -/
theorem inspectionIsIdempotent : Obligations.InspectionIsIdempotent := by
  intro i s t hi h
  rcases exec_next h with ⟨r, hr, -⟩ | ⟨rfl, -⟩ | ⟨rfl, hinit, rfl⟩ | ⟨rfl, hinit, hs, hcap, rfl⟩ |
    ⟨rfl, hinit, hs, rfl⟩
  · rcases hi with rfl | rfl <;> cases hr
  · rcases hi with hi | hi <;> cases hi
  · exact ⟨rfl, exec_ready (s := s.present _) hinit⟩
  · exact ⟨rfl, exec_data_of_complete (s := s.present _) hinit hs hcap⟩
  · exact ⟨rfl, exec_data_of_not_complete (s := s.present _) hinit hs⟩

end Sys2Proof.Machine

/-! ### Frames the classifier refuses (spec/60_exceptions.md rule R141, rule R142) -/

namespace Sys2Proof.Machine

/-- A frame that the classifier refuses with a failure that performs no ABORT is answered with that failure, and the
response is all that changes (R79, R150). -/
theorem exec_of_refused {i : Instr} {s : State} {n : Nat} {f : Failure}
    (hclass : classified s.config.capacity i = some (.error f)) (hlen : i.frameLen = some n)
    (hi : s.initialised = true) (hn : n ≤ s.config.frameCap) (hkeeps : f.aborts s.state = false) :
    exec i s = .next (s.respond (.err f)) := by
  obtain ⟨m, hm, hexec⟩ := exec_of_classified hclass
  cases hlen.symm.trans hm
  calc exec i s
      = s.updateWith n (.error f) := hexec
    _ = s.transport (.error f) := State.updateWith_of_accepted hi hn _
    _ = .next (s.raise f) := rfl
    _ = .next (s.respond (.err f)) := congrArg _ (State.raise_of_keeps hkeeps)

/-- Settles O9: each of the twelve rows is classified as `classifyReserved`, whose failure performs no ABORT in any
state. -/
theorem reservedTypesAreUnknown : Obligations.ReservedTypesAreUnknown := by
  rintro lo rest s hi hn t rfl
  have hrow (i : Instr) (hclass : classified s.config.capacity i = some classifyReserved)
      (hlen : i.frameLen = some (rest.length + 1)) : exec i s = .next (s.respond (.err .unknownFrameType)) :=
    exec_of_refused hclass hlen hi hn rfl
  exact ⟨hrow (.rsv4 ..) rfl rfl, hrow (.rsv5 ..) rfl rfl, hrow (.rsv6 ..) rfl rfl, hrow (.rsv7 ..) rfl rfl,
    hrow (.rsv8 ..) rfl rfl, hrow (.rsv9 ..) rfl rfl, hrow (.rsvA ..) rfl rfl, hrow (.rsvB ..) rfl rfl,
    hrow (.rsvC ..) rfl rfl, hrow (.rsvD ..) rfl rfl, hrow (.rsvE ..) rfl rfl, hrow (.rsvF ..) rfl rfl⟩

/-- The empty frame has no byte 0 to read a type from (R71). -/
theorem classify_nil (capacity : Length) : classify capacity [] = .error .malformedFrame := rfl

/-- A First Frame of one byte has no second header byte, whatever its low nibble (R74). -/
theorem classify_shortFirst (capacity : Length) (lo : Nibble) :
    classify capacity [byte0 0x1#4 lo] = .error .malformedFrame := by
  simp [classify, typeNibble_byte0, classifyShortFirst]

/-- Settles O10: both frames are too short for their header, and `MalformedFrame` performs no ABORT in any state. -/
theorem malformedFramesChangeNothing : Obligations.MalformedFramesChangeNothing := by
  intro f s hi hn hf
  have hclass : classify s.config.capacity f = .error .malformedFrame := by
    rcases hf with rfl | ⟨lo, rfl⟩
    · exact classify_nil _
    · exact classify_shortFirst _ lo
  exact exec_of_refused (i := .update f) (congrArg some hclass) rfl hi hn rfl

end Sys2Proof.Machine

/-! ### Decoding and encoding are inverse (spec/30_encoding.md rule R50 to rule R64) -/

namespace Sys2Proof

/-- An instruction with a frame is well formed exactly when the frame is inside the contract (R50). -/
theorem Instr.wf_iff {i : Instr} {n : Nat} (h : i.frameLen = some n) (c : Config) :
    i.wf c = true ↔ n ≤ c.frameCap := by
  simp [Instr.wf, h]

/-- `i` is `row`, or the UPDATE on raw bytes that the decoder reads as `row` (log entry 10). -/
def Instr.Runs (i row : Instr) : Prop := i = row ∨ ∃ f, i = .update f ∧ decodeFrame f = row

end Sys2Proof

namespace Sys2Proof.Machine

theorem decode_update_of_fits {c : Config} {f : List Byte} (h : f.length ≤ c.frameCap) :
    decode c (.update f) = .ok (decodeFrame f) :=
  if_neg (Nat.not_lt.2 h)

/-- Of the frames of one byte, only those of type 1 match no row (R74). -/
theorem matchesFrameRow_singleton (b0 : Byte) : matchesFrameRow [b0] = decide (typeNibble b0 ≠ 0x1#4) := rfl

/-- A frame that matches no row of the opcode table stays an UPDATE on its raw bytes (R71, R74). -/
theorem decodeFrame_of_no_row {f : List Byte} (h : matchesFrameRow f = false) : decodeFrame f = .update f := by
  match f, h with
  | [], _ => rfl
  | [b0], h =>
    have htype : typeNibble b0 = 0x1#4 := by simpa [matchesFrameRow_singleton] using h
    simp [decodeFrame, htype]

/-- The decoder reads every canonical instruction back from the frame that the encoder gives it. -/
theorem decodeFrame_of_encode {i : Instr} {f : List Byte} (h : encode i = .update f) (hc : i.canonical = true) :
    decodeFrame f = i := by
  cases i <;> cases h
  case update => exact decodeFrame_of_no_row (by simpa [Instr.canonical] using hc)
  case ff => simp [decodeFrame, typeNibble_byte0, lowNibble_byte0, joinLength_fields]
  all_goals simp [decodeFrame, typeNibble_byte0, lowNibble_byte0]

/-- The whole decoder on the frame of a well-formed canonical instruction: the frame is as long as the instruction
says, so it is not refused. -/
theorem decode_of_encode {c : Config} {i : Instr} {f : List Byte} (h : encode i = .update f) (hw : i.wf c = true)
    (hc : i.canonical = true) : decode c (.update f) = .ok i := by
  have hrow := decodeFrame_of_encode h hc
  have hlen : i.frameLen = some f.length := hrow ▸ decodeFrame_frameLen f
  rw [decode_update_of_fits ((Instr.wf_iff hlen c).1 hw), hrow]

/-- Settles O35: a host operation has no bits to decode, and every other instruction is read back from its frame. -/
theorem decodeInvertsEncode : Obligations.DecodeInvertsEncode := by
  intro c i hw hc
  cases i
  case reset | ready | data => rfl
  all_goals exact decode_of_encode rfl hw hc

/-- Byte 0 is its type with its low nibble (R51). -/
theorem byte0_of_type {b0 : Byte} {t : Nibble} (h : (typeNibble b0).toNat = t.toNat) :
    byte0 t (lowNibble b0) = b0 := by
  rw [← BitVec.eq_of_toNat_eq h, byte0_fields]

/-- No byte of a frame is lost in decoding it. -/
theorem encode_decodeFrame (f : List Byte) : encode (decodeFrame f) = .update f := by
  unfold decodeFrame
  split
  · rfl
  rename_i b0 rest
  simp only
  split
  case h_2 htype =>
    split
    · rfl
    · simp only [encode, lengthHigh_joinLength, lengthLow_joinLength, byte0_of_type (t := 0x1#4) htype]
  case h_16 =>
    have htype : (typeNibble b0).toNat = (0xF#4).toNat := by
      have := (typeNibble b0).isLt
      simp only [imp_false] at *
      show _ = 15
      omega
    simp only [encode, byte0_of_type htype]
  all_goals
    rename_i htype
    simp only [encode]
    rw [byte0_of_type htype]

/-- The decoder spells UPDATE on raw bytes only where the frame has no row (log entry 10). -/
theorem decodeFrame_canonical (f : List Byte) : (decodeFrame f).canonical = true := by
  unfold decodeFrame
  split
  · rfl
  rename_i b0 rest
  simp only
  split
  case h_2 htype =>
    have htype : typeNibble b0 = 0x1#4 := BitVec.eq_of_toNat_eq htype
    split
    · simp [Instr.canonical, matchesFrameRow_singleton, htype]
    · rfl
  all_goals rfl

/-- The canonical instruction of a host operation without a frame is the only one that encodes to it. -/
theorem eq_of_encode_hostOp {i j : Instr} (hi : ∀ f, encode i ≠ .update f) (h : encode j = encode i) : j = i := by
  cases i
  case reset | ready | data =>
    cases j <;> cases h
    rfl
  all_goals exact absurd rfl (hi _)

/-- Settles O36: the decoder gives the row of the frame, the encoder gives the frame back, and a second canonical
instruction with this frame would be decoded from it as well. -/
theorem encodeInvertsDecode : Obligations.EncodeInvertsDecode := by
  intro c op hop
  cases op with
  | reset => exact ⟨.reset, rfl, rfl, rfl, rfl, fun j hj _ => eq_of_encode_hostOp nofun hj⟩
  | ready => exact ⟨.ready, rfl, rfl, rfl, rfl, fun j hj _ => eq_of_encode_hostOp nofun hj⟩
  | data => exact ⟨.data, rfl, rfl, rfl, rfl, fun j hj _ => eq_of_encode_hostOp nofun hj⟩
  | update f =>
    have hlen := hop f rfl
    exact ⟨decodeFrame f, decode_update_of_fits hlen, encode_decodeFrame f,
      (Instr.wf_iff (decodeFrame_frameLen f) c).2 hlen, decodeFrame_canonical f,
      fun j hj hc => (decodeFrame_of_encode hj hc).symm⟩

end Sys2Proof.Machine

/-! ### The row of an accepted frame, and the failures that change nothing (spec/40_classifier.md) -/

namespace Sys2Proof.Machine

theorem classifySingle_ok {L : Nibble} {rest : List Byte} {r : Pci × List Byte} (h : classifySingle L rest = .ok r) :
    L.toNat ≤ rest.length ∧ r = (.single L, rest.take L.toNat) := by
  rw [classifySingle] at h
  split at h <;> cases h
  exact ⟨by omega, rfl⟩

theorem classifyFirst_ok {capacity total : Length} {chunk : List Byte} {r : Pci × List Byte}
    (h : classifyFirst capacity total chunk = .ok r) :
    total.toNat ≤ capacity.toNat ∧ r = (.first total, chunk) := by
  rw [classifyFirst] at h
  split at h <;> cases h
  exact ⟨by omega, rfl⟩

/-- What the classifier accepts of an instruction's frame: its row, with the tests that the row has passed
(R73, R74). -/
inductive AcceptedInstr (capacity : Length) (i : Instr) : Pci × List Byte → Prop where
  | single {L : Nibble} {rest : List Byte} (hrow : i.Runs (.sf L rest)) (hlen : L.toNat ≤ rest.length) :
      AcceptedInstr capacity i (.single L, rest.take L.toNat)
  | first {total : Length} {chunk : List Byte} (hrow : i.Runs (.ff total chunk))
      (hcap : total.toNat ≤ capacity.toNat) : AcceptedInstr capacity i (.first total, chunk)
  | consecutive {sn : Nibble} {payload : List Byte} (hrow : i.Runs (.cf sn payload)) :
      AcceptedInstr capacity i (.consecutive sn, payload)
  | flowControl {lo : Nibble} {rest : List Byte} (hrow : i.Runs (.fc lo rest)) :
      AcceptedInstr capacity i (.flowControl, [])

theorem AcceptedInstr.of_row {capacity : Length} {i row : Instr} {r : Pci × List Byte} (hrow : i.Runs row)
    (hraw : ∀ f, row ≠ .update f) (h : classified capacity row = some (.ok r)) : AcceptedInstr capacity i r := by
  cases row
  case sf L rest =>
    obtain ⟨hlen, rfl⟩ := classifySingle_ok (Option.some.inj h)
    exact .single hrow hlen
  case ff total chunk =>
    obtain ⟨hcap, rfl⟩ := classifyFirst_ok (Option.some.inj h)
    exact .first hrow hcap
  case cf =>
    cases h
    exact .consecutive hrow
  case fc =>
    cases h
    exact .flowControl hrow
  case update f => exact absurd rfl (hraw f)
  all_goals cases h

theorem classified_ok {capacity : Length} {i : Instr} {r : Pci × List Byte}
    (h : classified capacity i = some (.ok r)) : AcceptedInstr capacity i r := by
  by_cases hraw : ∃ f, i = .update f
  · obtain ⟨f, rfl⟩ := hraw
    refine .of_row (.inr ⟨f, rfl, rfl⟩) (fun g hg => ?_) ((decodeFrame_classified capacity f).trans h)
    cases classify_ok (Option.some.inj h) with
    | single hrow | first hrow | consecutive hrow | flowControl hrow => cases hrow.symm.trans hg
  · exact .of_row (.inl rfl) (not_exists.1 hraw) h

/-- None of the classifier's failures performs ABORT, in any state (R79, R150, D11). -/
theorem classify_error_keeps {capacity : Length} {frame : List Byte} {f : Failure}
    (h : classify capacity frame = .error f) (p : Phase) : f.aborts p = false := by
  rcases frame with - | ⟨b0, rest⟩
  · cases h
    rfl
  simp only [classify] at h
  split at h
  case h_1 =>
    rw [classifySingle] at h
    split at h <;> cases h
    rfl
  case h_2 =>
    rcases rest with - | ⟨b1, payload⟩
    · cases h
      rfl
    simp only [classifyFirst] at h
    split at h <;> cases h
    rfl
  case h_3 | h_4 => cases h
  case h_5 =>
    cases h
    rfl

/-- The classification of an instruction is that of a frame: its own, or the one it encodes to. -/
theorem exists_classify_of_classified {capacity : Length} {i : Instr} {r : Classified}
    (h : classified capacity i = some r) : ∃ f, classify capacity f = r := by
  have hrow {f : List Byte} (hf : encode i = .update f) (hc : i.canonical = true) : classify capacity f = r :=
    Option.some.inj ((decodeFrame_classified capacity f).symm.trans (decodeFrame_of_encode hf hc ▸ h))
  cases i
  case reset | ready | data => cases h
  case update f => exact ⟨f, Option.some.inj h⟩
  all_goals exact ⟨_, hrow rfl rfl⟩

theorem classified_error_keeps {capacity : Length} {i : Instr} {f : Failure}
    (h : classified capacity i = some (.error f)) (p : Phase) : f.aborts p = false := by
  obtain ⟨frame, hclass⟩ := exists_classify_of_classified h
  exact classify_error_keeps hclass p

/-- Settles O15: no failure of the classifier performs ABORT, so each changes the response alone. -/
theorem classifierFailuresChangeNothing : Obligations.ClassifierFailuresChangeNothing := by
  intro f s e hi hn hclass
  exact exec_of_refused (i := .update f) (congrArg some hclass) rfl hi hn (classify_error_keeps hclass _)

/-- Settles O11: decoding keeps the length and the classification of a frame, and `exec` reads nothing else of it. -/
theorem updateRunsItsFrameRow : Obligations.UpdateRunsItsFrameRow :=
  fun f s => (exec_decodeFrame f s).symm

end Sys2Proof.Machine

/-! ### Everything an instruction can do, sorted by its effect on the state -/

namespace Sys2Proof.Machine

/-- The state after an accepted Single or First Frame: `payload` is the buffer, `total` is expected (R101, R102). -/
def State.opened (s : State) (payload : List Byte) (total : Length) (sn : Nibble) : State :=
  (s.bufReset.appended payload).openTransfer total sn (phaseAfter payload.length total.toNat)

/-- The ways an instruction can lead from `s` to `t`. -/
inductive State.Answered (s t : State) (i : Instr) : Prop where
  /-- A failure that changes the response alone. -/
  | kept {f : Failure} (hseq : f ≠ .sequenceMismatch) (hov : f = .overflow → s.state ≠ .receiving)
      (ht : t = s.respond (.err f))
  /-- A failure that abandons the transfer in progress. -/
  | aborted {f : Failure} (hs : s.state = .receiving) (hf : f = .overflow ∨ f = .sequenceMismatch)
      (ht : t = s.abort.respond (.err f))
  /-- An accepted Single Frame. -/
  | single {L : Nibble} {rest : List Byte} (hrow : i.Runs (.sf L rest)) (hlen : L.toNat ≤ rest.length)
      (hcap : L.toNat ≤ s.config.capacity.toNat)
      (ht : t = (s.opened (rest.take L.toNat) (L.setWidth 12) 0#4).respond (.okSome (L.setWidth 12)))
  /-- An accepted First Frame. -/
  | first {total : Length} {chunk : List Byte} (hrow : i.Runs (.ff total chunk))
      (hlen : chunk.length ≤ total.toNat) (hcap : total.toNat ≤ s.config.capacity.toNat)
      (ht : t = (s.opened chunk total 1#4).respond (.okSome total))
  /-- An accepted Consecutive Frame. -/
  | continued {payload : List Byte} (hs : s.state = .receiving)
      (hfits : s.bufLen.toNat + (s.wanted payload).length ≤ s.config.capacity.toNat)
      (ht : t = (s.continued payload).respond .okNone)
  | reset (hi : i = .reset) (ht : t = { s.clearRegisters with initialised := true }.present none)
  /-- READY or DATA. -/
  | inspected {o : Option Observation} (hi : i = .ready ∨ i = .data) (ht : t = s.present o)
      (ho : ∀ r, o ≠ some (.response r))

theorem nibble_setWidth_toNat (L : Nibble) : (L.setWidth 12).toNat = L.toNat := by
  have := L.isLt
  rw [BitVec.toNat_setWidth]
  omega

theorem single_payload_length {L : Nibble} {rest : List Byte} (h : L.toNat ≤ rest.length) :
    (rest.take L.toNat).length = L.toNat := by
  rw [List.length_take, Nat.min_eq_left h]

/-- A Single Frame is a transfer that is complete as soon as it is opened. -/
theorem State.openTransfer_single (s : State) {L : Nibble} {rest : List Byte} (h : L.toNat ≤ rest.length) :
    (s.bufReset.appended (rest.take L.toNat)).openTransfer (L.setWidth 12) 0#4 .complete =
      s.opened (rest.take L.toNat) (L.setWidth 12) 0#4 := by
  rw [State.opened, phaseAfter_eq_complete.2]
  rw [single_payload_length h, nibble_setWidth_toNat]

theorem State.opened_single_state (s : State) {L : Nibble} {rest : List Byte} (h : L.toNat ≤ rest.length) :
    (s.opened (rest.take L.toNat) (L.setWidth 12) 0#4).state = .complete := by
  rw [← s.openTransfer_single h, State.openTransfer_state]

/-- A failure raised for a reason the model can have is one of the two effects of R150. -/
theorem State.answered_raise {s : State} {f : Failure} (h : f = .sequenceMismatch → s.state = .receiving)
    (i : Instr) : s.Answered (s.raise f) i := by
  rcases s.raise_cases f with ⟨hkeeps, ht⟩ | ⟨haborts, ht⟩
  · refine .kept ?_ ?_ ht <;> rintro rfl
    · cases hkeeps
    · exact of_decide_eq_false hkeeps
  · cases f
    case overflow => exact .aborted (of_decide_eq_true haborts) (.inl rfl) ht
    case sequenceMismatch => exact .aborted (h rfl) (.inr rfl) ht
    all_goals cases haborts

theorem State.Transported.answered {s t : State} {i : Instr} {r : Classified}
    (hclass : classified s.config.capacity i = some r) (h : s.Transported t r) : s.Answered t i := by
  cases h with
  | rejected hr ht =>
    subst ht
    refine State.answered_raise (fun hf => ?_) i
    subst hf
    rcases hr with rfl | ⟨hf, -⟩
    · cases classified_error_keeps hclass .receiving
    · cases hf
  | overflow _ ht | unexpected _ ht =>
    subst ht
    refine State.answered_raise ?_ i
    nofun
  | mismatch hs _ ht =>
    subst ht
    exact State.answered_raise (fun _ => hs) i
  | single hfits ht =>
    cases classified_ok hclass with
    | single hrow hlen =>
      rw [single_payload_length hlen] at hfits
      exact .single hrow hlen hfits (s.openTransfer_single hlen ▸ ht)
  | first hlen _ ht =>
    cases classified_ok hclass with
    | first hrow hcap => exact .first hrow hlen hcap ht
  | continued hs hfits ht => exact .continued hs hfits ht

/-- The inversion lemma of `exec`, by effect. -/
theorem exec_answered {i : Instr} {s t : State} (h : exec i s = .next t) : s.Answered t i := by
  rcases exec_next h with ⟨r, hclass, -, ht⟩ | ⟨hi, ht⟩ | ⟨hi, -, ht⟩ | ⟨hi, -, -, -, ht⟩ |
    ⟨hi, -, -, ht⟩
  · exact ht.answered hclass
  · exact .reset hi ht
  · exact .inspected (.inl hi) ht nofun
  · exact .inspected (.inr hi) ht nofun
  · exact .inspected (.inr hi) ht nofun

/-- Only the two failing effects present `Err(e)`. -/
theorem exec_err {i : Instr} {s t : State} {e : Failure} (h : exec i s = .next t)
    (he : t.output = some (.response (.err e))) :
    (¬(e = .sequenceMismatch ∨ (e = .overflow ∧ s.state = .receiving)) ∧ t = s.respond (.err e)) ∨
    (s.state = .receiving ∧ (e = .overflow ∨ e = .sequenceMismatch) ∧ t = s.abort.respond (.err e)) := by
  cases exec_answered h with
  | kept hseq hov ht =>
    subst ht
    cases he
    exact .inl ⟨fun haborts => haborts.elim hseq fun ⟨hf, hs⟩ => hov hf hs, rfl⟩
  | aborted hs hf ht =>
    subst ht
    cases he
    exact .inr ⟨hs, hf, rfl⟩
  | single _ _ _ ht | first _ _ _ ht | continued _ _ ht | reset _ ht =>
    subst ht
    cases he
  | inspected _ ht ho =>
    subst ht
    exact absurd he (ho _)

theorem State.idleRegisters_clearRegisters (s : State) : IdleRegisters s.clearRegisters := ⟨rfl, rfl, rfl, rfl, rfl⟩

/-- Settles O17: ABORT is RESET's register writes, and `exec_err` says which failures perform it. -/
theorem failureEffectIsNoneOrAbort : Obligations.FailureEffectIsNoneOrAbort := by
  intro i s t e h he
  rcases exec_err h he with ⟨hkeeps, ht⟩ | ⟨hs, hf, ht⟩
  · exact ⟨fun haborts => absurd haborts hkeeps, fun _ => ht⟩
  · exact ⟨fun _ => ⟨hs, ht⟩, fun hkeeps => absurd (hf.symm.imp_right fun hov => ⟨hov, hs⟩) hkeeps⟩

/-- Settles O16: neither effect of a failure writes `BUF`. -/
theorem failingUpdateStoresNothing : Obligations.FailingUpdateStoresNothing := by
  intro i s t e h he
  rcases exec_err h he with ⟨-, rfl⟩ | ⟨hs, hf, rfl⟩
  · exact ⟨fun _ => rfl, .inl rfl⟩
  · exact ⟨fun _ => rfl, .inr ⟨hs, hf, ⟨rfl, rfl, rfl, rfl, rfl⟩, ⟨rfl, rfl, rfl⟩⟩⟩

/-- Settles O29: in `COMPLETE` no transfer is in progress to abandon or to continue, so an instruction that opens none
only presents a result. -/
theorem completeMessagePersists : Obligations.CompleteMessagePersists := by
  intro i s t h hs hreset hnew
  cases exec_answered h with
  | kept _ _ ht | inspected _ ht _ =>
    subst ht
    rfl
  | aborted hrecv _ _ | continued hrecv _ _ => cases hs.symm.trans hrecv
  | single _ _ _ ht | first _ _ _ ht =>
    subst ht
    exact absurd rfl (hnew _)
  | reset hi _ => exact absurd hi hreset

theorem phaseAfter_ne_idle (held total : Nat) : phaseAfter held total ≠ .idle := by
  unfold phaseAfter
  split <;> nofun

/-- Settles O13: an instruction that is no RESET moves `state` only by ABORT, by opening a transfer, or by continuing
one. -/
theorem stateArcsAreTheTables : Obligations.StateArcsAreTheTables := by
  intro i s t h
  cases exec_answered h with
  | kept _ _ ht | inspected _ ht _ =>
    subst ht
    exact ⟨fun hne heq => absurd heq hne, fun heq hne => absurd heq hne, fun hne heq => absurd heq hne⟩
  | aborted hs hf ht =>
    subst ht
    refine ⟨fun _ _ => .inr ⟨hs, ?_⟩, fun hc => ?_, fun hne => absurd hs hne⟩
    · simpa using hf
    · cases hs.symm.trans hc
  | @single L rest _ hlen _ ht =>
    have hcomplete : t.state = .complete := ht ▸ s.opened_single_state hlen
    rw [hcomplete]
    exact ⟨nofun, fun _ hne => absurd rfl hne, nofun⟩
  | @first total chunk hrow _ _ ht =>
    subst ht
    exact ⟨fun _ hidle => absurd hidle (phaseAfter_ne_idle _ _), fun _ _ => .inr ⟨total, chunk, hrow, rfl⟩,
      fun _ _ => ⟨total, chunk, hrow, rfl⟩⟩
  | continued hs _ ht =>
    subst ht
    refine ⟨fun _ hidle => absurd hidle (phaseAfter_ne_idle _ _), fun hc => ?_, fun hne => absurd hs hne⟩
    cases hs.symm.trans hc
  | reset hi ht =>
    subst ht
    exact ⟨fun _ _ => .inl hi, fun _ _ => .inl hi, nofun⟩

end Sys2Proof.Machine

/-! ### The invariant (spec/10_state.md rule R17 to rule R20) -/

namespace Sys2Proof.Machine

/-! #### What an accepted frame leaves in the registers and in `BUF` -/

section Opened

variable {s : State} {payload : List Byte} (total : Length) (sn : Nibble)

theorem State.opened_bufLen (h : payload.length ≤ s.config.capacity.toNat) :
    (s.opened payload total sn).bufLen.toNat = payload.length := by
  have hlen : (s.bufReset.appended payload).bufLen.toNat = 0 + payload.length :=
    State.appended_bufLen (by simpa using h)
  rw [Nat.zero_add] at hlen
  exact hlen

theorem State.opened_buffer (h : payload.length ≤ s.config.capacity.toNat) :
    (s.opened payload total sn).buffer = payload := by
  have hbuf : (s.bufReset.appended payload).buffer = s.bufReset.buffer ++ payload :=
    State.appended_buffer (by simpa using h)
  exact hbuf

theorem State.opened_cell_inside {i : Nat} (h : i < payload.length) :
    (s.opened payload total sn).cell i = some payload[i] := by
  have hcell := s.bufReset.appended_cell_inside h
  rw [State.bufReset_bufLen] at hcell
  simpa [State.opened] using hcell

theorem State.opened_cell_getElem? {i : Nat} (h : i < payload.length) :
    (s.opened payload total sn).cell i = payload[i]? := by
  rw [State.opened_cell_inside _ _ h, List.getElem?_eq_getElem h]

theorem State.opened_cell_outside {a : Nat} (h : payload.length ≤ a) :
    (s.opened payload total sn).cell a = s.cell a := by
  have hout : a < s.bufReset.bufLen.toNat ∨ s.bufReset.bufLen.toNat + payload.length ≤ a := by
    simpa using h
  exact s.bufReset.appended_cell_outside hout

end Opened

section Continued

variable {s : State} {payload : List Byte}

theorem State.continued_bufLen
    (h : s.bufLen.toNat + (s.wanted payload).length ≤ s.config.capacity.toNat) :
    (s.continued payload).bufLen.toNat = s.bufLen.toNat + (s.wanted payload).length :=
  State.appended_bufLen h

theorem State.continued_buffer
    (h : s.bufLen.toNat + (s.wanted payload).length ≤ s.config.capacity.toNat) :
    (s.continued payload).buffer = s.buffer ++ s.wanted payload :=
  State.appended_buffer h

theorem State.continued_cell_inside {i : Nat} (h : i < (s.wanted payload).length) :
    (s.continued payload).cell (s.bufLen.toNat + i) = some (s.wanted payload)[i] :=
  s.appended_cell_inside h

/-- The bytes stored are the first of the payload (R103). -/
theorem State.continued_cell_getElem? {i : Nat} (h : i < (s.wanted payload).length) :
    (s.continued payload).cell (s.bufLen.toNat + i) = payload[i]? := by
  rw [State.continued_cell_inside h, ← List.getElem?_eq_getElem h]
  exact List.getElem?_take_of_lt (h.trans_eq (s.wanted_length payload))

theorem State.continued_cell_outside {a : Nat}
    (h : a < s.bufLen.toNat ∨ s.bufLen.toNat + (s.wanted payload).length ≤ a) :
    (s.continued payload).cell a = s.cell a :=
  s.appended_cell_outside h

end Continued

/-! #### The registers -/

theorem IdleRegisters.regsInv {s : State} (h : IdleRegisters s) : s.RegsInv where
  bufLen_le := by simp [h.bufLen]
  total_le := by simp [h.expectedTotal]
  total_zero _ := h.expectedTotal
  receiving hs := by cases h.state.symm.trans hs
  complete := by simp [h.state, h.totalValid]
  idle _ := ⟨h.totalValid, h.bufLen, h.expectedTotal, h.expectedSequence⟩
  written a ha := by simp [h.bufLen] at ha

/-- The invariant of the registers says nothing of what the last operation returned. -/
theorem State.RegsInv.present {s : State} (h : s.RegsInv) (o : Option Observation) : (s.present o).RegsInv :=
  ⟨h.bufLen_le, h.total_le, h.total_zero, h.receiving, h.complete, h.idle, h.written⟩

/-- The invariant where a transfer of `total` bytes holds its first `held` bytes and `state` is the comparison of the
two (R102, R103). -/
theorem State.RegsInv.of_phaseAfter {t : State} {held : Nat} (hlen : t.bufLen.toNat = held)
    (hheld : held ≤ t.expectedTotal.toNat) (hcap : t.expectedTotal.toNat ≤ t.config.capacity.toNat)
    (hvalid : t.totalValid = true) (hstate : t.state = phaseAfter held t.expectedTotal.toNat)
    (hwritten : ∀ a, a < held → (t.cell a).isSome) : t.RegsInv where
  bufLen_le := by omega
  total_le := hcap
  total_zero h := by cases hvalid.symm.trans h
  receiving h := by
    have hne : held ≠ t.expectedTotal.toNat := fun heq => by
      rw [hstate, phaseAfter_eq_complete.2 heq] at h
      cases h
    exact ⟨hvalid, by omega⟩
  complete := by
    rw [hstate, phaseAfter_eq_complete, ← hlen, ← BitVec.toNat_inj]
    exact (and_iff_right hvalid).symm
  idle h := absurd (hstate.symm.trans h) (phaseAfter_ne_idle _ _)
  written a ha := hwritten a (by omega)

theorem State.opened_regsInv {s : State} {payload : List Byte} {total : Length} {sn : Nibble}
    (hlen : payload.length ≤ total.toNat) (hcap : total.toNat ≤ s.config.capacity.toNat) :
    (s.opened payload total sn).RegsInv := by
  have hbufLen : (s.opened payload total sn).bufLen.toNat = payload.length := State.opened_bufLen _ _ (by omega)
  refine .of_phaseAfter hbufLen hlen hcap rfl rfl fun a ha => ?_
  rw [State.opened_cell_inside _ _ ha, Option.isSome_some]

/-- A transfer in progress never wants more bytes than `BUF` still holds. -/
theorem State.RegsInv.wanted_fits {s : State} (h : s.RegsInv) (payload : List Byte) :
    s.bufLen.toNat + (s.wanted payload).length ≤ s.config.capacity.toNat := by
  have hlen := s.wanted_length payload
  have htotal := h.total_le
  have hbufLen := h.bufLen_le
  rw [State.remaining] at hlen
  omega

theorem State.RegsInv.continued {s : State} (h : s.RegsInv) (hs : s.state = .receiving) (payload : List Byte) :
    (s.continued payload).RegsInv := by
  obtain ⟨hvalid, hlt⟩ := h.receiving hs
  have hheld : s.bufLen.toNat + (s.wanted payload).length ≤ s.expectedTotal.toNat := by
    rw [s.wanted_length, State.remaining]
    omega
  refine .of_phaseAfter (State.continued_bufLen (h.wanted_fits payload)) hheld h.total_le hvalid rfl fun a ha => ?_
  by_cases hold : a < s.bufLen.toNat
  · rw [State.continued_cell_outside (.inl hold)]
    exact h.written a hold
  · obtain ⟨i, rfl⟩ := Nat.exists_eq_add_of_le (Nat.le_of_not_lt hold)
    rw [State.continued_cell_inside (by omega), Option.isSome_some]

/-! #### The registers and the memory -/

/-- A change of the registers alone. -/
theorem State.Inv.of_buf_eq {s t : State} (h : s.Inv) (hconfig : t.config = s.config) (hbuf : t.buf = s.buf)
    (hregs : t.initialised = true → t.RegsInv) : t.Inv where
  config_wf := hconfig ▸ h.config_wf
  buf_wf := hbuf ▸ h.buf_wf
  buf_inside := by
    rw [hconfig, hbuf]
    exact h.buf_inside
  regs := hregs

/-- A store inside `BUF`, with any change of the registers. -/
theorem State.Inv.of_writeBytes {s t : State} {a : Nat} {bytes : List Byte} (h : s.Inv)
    (hconfig : t.config = s.config) (hbuf : t.buf = Memory.writeBytes s.buf a bytes)
    (hfits : a + bytes.length ≤ s.config.capacity.toNat) (hregs : t.initialised = true → t.RegsInv) : t.Inv where
  config_wf := hconfig ▸ h.config_wf
  buf_wf := hbuf ▸ Memory.writeBytes_wf a bytes h.buf_wf
  buf_inside c hc := by
    rw [hconfig]
    rcases Memory.mem_writeBytes (hbuf ▸ hc) with ⟨-, hlt⟩ | hold
    · omega
    · exact h.buf_inside c hold
  regs := hregs

/-- Every instruction keeps the invariant: each effect of `Answered` leaves the registers idle, as they were, or those
of a transfer that holds its first bytes. -/
theorem exec_inv {i : Instr} {s t : State} (hinv : s.Inv) (h : exec i s = .next t) : t.Inv := by
  cases exec_answered h with
  | kept _ _ ht | inspected _ ht _ =>
    subst ht
    exact hinv.of_buf_eq rfl rfl fun hi => (hinv.regs hi).present _
  | aborted _ _ ht =>
    subst ht
    exact hinv.of_buf_eq rfl rfl fun _ => s.idleRegisters_clearRegisters.regsInv.present _
  | @single L rest _ hlen hcap ht =>
    subst ht
    have hpayload := single_payload_length hlen
    have htotal := nibble_setWidth_toNat L
    refine hinv.of_writeBytes rfl rfl (by simpa [hpayload] using hcap) fun _ => ?_
    exact (State.opened_regsInv (by omega) (by omega)).present _
  | @first total chunk _ hlen hcap ht =>
    subst ht
    refine hinv.of_writeBytes rfl rfl (by simpa using hlen.trans hcap) fun _ => ?_
    exact (State.opened_regsInv hlen hcap).present _
  | continued hs hfits ht =>
    subst ht
    exact hinv.of_writeBytes rfl rfl hfits fun hi => ((hinv.regs hi).continued hs _).present _
  | reset _ ht =>
    subst ht
    exact hinv.of_buf_eq rfl rfl fun _ => (IdleRegisters.mk rfl rfl rfl rfl rfl).regsInv

/-! ### The step (spec/20_memory.md rule R39) -/

/-- The state from which the oldest operation runs: the operation is taken from the queue (log entry 1). -/
def State.dequeued (s : State) (rest : List HostOp) : State := { s with pending := rest }

theorem step_of_idle {s : State} (h : s.pending = []) : step s = .next (s.present none) := by
  rw [step, h]

theorem step_of_decoded {s : State} {op : HostOp} {rest : List HostOp} {i : Instr} (h : s.pending = op :: rest)
    (hd : decode s.config op = .ok i) : step s = exec i (s.dequeued rest) := by
  rw [step, h]
  simp only [hd]
  rfl

theorem step_of_rejected {s : State} {op : HostOp} {rest : List HostOp} {why : DecodeReject}
    (h : s.pending = op :: rest) (hd : decode s.config op = .error why) : step s = .refused .frameTooLong := by
  cases why
  rw [step, h]
  simp only [hd]

/-- The three kinds of step. -/
theorem step_cases (s : State) :
    (s.pending = [] ∧ step s = .next (s.present none)) ∨
    (∃ op rest i, s.pending = op :: rest ∧ decode s.config op = .ok i ∧ step s = exec i (s.dequeued rest)) ∨
    (∃ op rest why, s.pending = op :: rest ∧ decode s.config op = .error why ∧
      step s = .refused .frameTooLong) := by
  rcases hp : s.pending with - | ⟨op, rest⟩
  · exact .inl ⟨rfl, step_of_idle hp⟩
  cases hd : decode s.config op with
  | ok i => exact .inr (.inl ⟨op, rest, i, rfl, hd, step_of_decoded hp hd⟩)
  | error why => exact .inr (.inr ⟨op, rest, why, rfl, hd, step_of_rejected hp hd⟩)

/-- Settles O37: both clauses are the equations of `step` on a queue that is not empty. -/
theorem stepRunsTheOldestOperation : Obligations.StepRunsTheOldestOperation :=
  fun _ _ _ hp => ⟨fun _ => step_of_decoded hp, fun _ => step_of_rejected hp⟩

/-- Settles O38: the idle step presents nothing. -/
theorem idleStepChangesNothing : Obligations.IdleStepChangesNothing := fun _ => step_of_idle

/-- The invariant says nothing of the queue. -/
theorem State.Inv.dequeued {s : State} (h : s.Inv) (rest : List HostOp) : (s.dequeued rest).Inv :=
  h.of_buf_eq rfl rfl fun hi =>
    have hr := h.regs hi
    ⟨hr.bufLen_le, hr.total_le, hr.total_zero, hr.receiving, hr.complete, hr.idle, hr.written⟩

/-- Settles O41: a step presents nothing or runs one instruction, and `exec_inv` says that each keeps the
invariant. -/
theorem stepKeepsInvariant : Obligations.StepKeepsInvariant := by
  intro s t hinv h
  rcases step_cases s with ⟨-, hs⟩ | ⟨op, rest, i, -, -, hs⟩ | ⟨op, rest, why, -, -, hs⟩ <;> rw [hs] at h
  · cases h
    exact hinv.of_buf_eq rfl rfl fun hi => (hinv.regs hi).present none
  · exact exec_inv (hinv.dequeued rest) h
  · cases h

/-- Settles O40: at construction the memory is empty and the registers are idle. -/
theorem constructionMeetsInvariant : Obligations.ConstructionMeetsInvariant :=
  fun _ hc => ⟨hc, List.Pairwise.nil, nofun, fun _ => (IdleRegisters.mk rfl rfl rfl rfl rfl).regsInv⟩

/-- Nothing that UPDATE does touches the parameters, the queue or the flag of the first RESET. -/
theorem State.Transported.sameSurroundings {s t : State} {r : Classified} (h : s.Transported t r) :
    SameSurroundings s t := by
  cases h with
  | rejected _ ht | overflow _ ht | unexpected _ ht | mismatch _ _ ht =>
    subst ht
    exact ⟨s.raise_config _, s.raise_initialised _, s.raise_pending _⟩
  | single _ ht | first _ _ ht | continued _ _ ht =>
    subst ht
    exact ⟨rfl, rfl, rfl⟩

/-- Every way an UPDATE takes effect presents a response (R177). -/
theorem State.Transported.responds {s t : State} {r : Classified} (h : s.Transported t r) :
    ∃ response, t.output = some (.response response) := by
  cases h with
  | rejected _ ht | overflow _ ht | unexpected _ ht | mismatch _ _ ht =>
    subst ht
    exact ⟨_, s.raise_output _⟩
  | single _ ht | first _ _ ht | continued _ _ ht =>
    subst ht
    exact ⟨_, rfl⟩

/-- What no instruction changes; only RESET sets the flag of the first RESET. -/
theorem exec_surroundings {i : Instr} {s t : State} (h : exec i s = .next t) :
    t.config = s.config ∧ t.pending = s.pending ∧ (s.initialised = true → t.initialised = true) := by
  rcases exec_next h with ⟨r, -, -, ht⟩ | ⟨-, rfl⟩ | ⟨-, -, rfl⟩ | ⟨-, -, -, -, rfl⟩ |
    ⟨-, -, -, rfl⟩
  case inl =>
    have hsame := ht.sameSurroundings
    exact ⟨hsame.config, hsame.pending, hsame.initialised.trans⟩
  case inr.inl => exact ⟨rfl, rfl, fun _ => rfl⟩
  all_goals exact ⟨rfl, rfl, id⟩

/-- Settles O39: a step takes the oldest operation, if there is one, and its instruction keeps the rest. -/
theorem stepKeepsParameters : Obligations.StepKeepsParameters := by
  intro s t h
  rcases step_cases s with ⟨hp, hs⟩ | ⟨op, rest, i, hp, -, hs⟩ | ⟨op, rest, why, -, -, hs⟩ <;> rw [hs] at h
  · cases h
    exact ⟨rfl, by simp [hp], id⟩
  · rw [hp]
    exact exec_surroundings h
  · cases h

/-! ### What answers in the invariant (spec/41_buffer.md rule R96, spec/70_reset_and_hazards.md rule R177) -/

theorem State.RegsInv.transport_answers {s : State} (h : s.RegsInv) (r : Classified) :
    ∃ t, s.transport r = .next t := by
  match r with
  | .error f => exact ⟨_, rfl⟩
  | .ok (.single L, payload) =>
    rcases Nat.lt_or_ge s.config.capacity.toNat payload.length with hov | hfits
    · exact ⟨_, State.acceptSingle_of_exceeds hov⟩
    · exact ⟨_, State.acceptSingle_of_fits hfits⟩
  | .ok (.first total, chunk) =>
    rcases Nat.lt_or_ge total.toNat chunk.length with hov | hlen
    · exact ⟨_, State.acceptFirst_of_exceeds hov⟩
    rcases Nat.lt_or_ge s.config.capacity.toNat chunk.length with hov | hfits
    · exact ⟨_, State.acceptFirst_of_no_room hov⟩
    · exact ⟨_, State.acceptFirst_of_fits hlen hfits⟩
  | .ok (.consecutive sn, payload) =>
    by_cases hs : s.state = .receiving
    · by_cases hsn : sn = s.expectedSequence
      · subst hsn
        exact ⟨_, State.acceptConsecutive_of_fits hs (h.wanted_fits payload)⟩
      · exact ⟨_, State.acceptConsecutive_of_mismatch hs hsn payload⟩
    · exact ⟨_, State.acceptConsecutive_of_not_receiving hs sn payload⟩
  | .ok (.flowControl, _) => exact ⟨_, rfl⟩

theorem classified_of_frameLen {i : Instr} {n : Nat} (h : i.frameLen = some n) (capacity : Length) :
    ∃ r, classified capacity i = some r := by
  cases i
  case reset | ready | data => cases h
  all_goals exact ⟨_, rfl⟩

/-- An instruction inside the contract is the transport of its frame's classification. -/
theorem exec_eq_transport {i : Instr} {n : Nat} {s : State} {r : Classified} (hlen : i.frameLen = some n)
    (hi : s.initialised = true) (hn : n ≤ s.config.frameCap) (hr : classified s.config.capacity i = some r) :
    exec i s = s.transport r := by
  obtain ⟨m, hm, hexec⟩ := exec_of_classified hr
  cases hlen.symm.trans hm
  rw [hexec, State.updateWith_of_accepted hi hn]

/-- Settles O18: in the invariant every classified frame has a next state, and each next state responds. -/
theorem everyUpdateResponds : Obligations.EveryUpdateResponds := by
  intro i n s hinv hi hlen hn
  obtain ⟨r, hr⟩ := classified_of_frameLen hlen s.config.capacity
  obtain ⟨t, ht⟩ := (hinv.regs hi).transport_answers r
  have htrans := State.transport_next ht
  obtain ⟨response, hout⟩ := htrans.responds
  exact ⟨t, response, (exec_eq_transport hlen hi hn hr).trans ht, hout, htrans.sameSurroundings⟩

/-- Before the first RESET every instruction but RESET is refused (R171, log entry 5). -/
theorem exec_of_uninitialised {i : Instr} {s : State} (hi : s.initialised = false) (hreset : i ≠ .reset) :
    exec i s = .refused .beforeFirstReset := by
  cases hr : classified s.config.capacity i with
  | some r =>
    obtain ⟨n, -, hexec⟩ := exec_of_classified hr
    simp [hexec, State.updateWith, State.updateRefusal, hi]
  | none =>
    cases i <;> simp only [classified, reduceCtorEq] at hr
    case reset => exact absurd rfl hreset
    case ready => simp [exec, execReady, hi]
    case data => simp [exec, execData, hi]

/-- After it, a frame that is too long is refused whatever it holds (R50, D4). -/
theorem exec_of_long {i : Instr} {n : Nat} {s : State} (hi : s.initialised = true) (hlen : i.frameLen = some n)
    (hn : s.config.frameCap < n) : exec i s = .refused .frameTooLong := by
  obtain ⟨r, hr⟩ := classified_of_frameLen hlen s.config.capacity
  obtain ⟨m, hm, hexec⟩ := exec_of_classified hr
  cases hlen.symm.trans hm
  simp [hexec, State.updateWith, State.updateRefusal, hi, hn]

/-- Settles O3: `poweredUp` is any state whose flag of the first RESET is not set, and RESET asks for nothing. -/
theorem onlyResetHasMeaningBeforeFirstReset : Obligations.OnlyResetHasMeaningBeforeFirstReset := by
  intro s i
  refine ⟨exec_of_uninitialised rfl, fun hi => ?_⟩
  subst hi
  exact ⟨_, rfl, rfl, ⟨rfl, rfl, rfl, rfl, rfl⟩⟩

/-- Settles O19: the length is tested before anything else is read of the frame. -/
theorem longFramesAreRefused : Obligations.LongFramesAreRefused :=
  fun _ _ _ => exec_of_long

/-- After the first RESET the invariant keeps CF and DATA, which alone can fault, inside `BUF`. -/
theorem State.Inv.exec_no_fault {s : State} (hinv : s.Inv) (i : Instr) (why : Fault) : exec i s ≠ .fault why := by
  intro h
  by_cases hreset : i = .reset
  · subst hreset
    cases h
  cases hi : s.initialised with
  | false => cases (exec_of_uninitialised hi hreset).symm.trans h
  | true =>
    have hregs := hinv.regs hi
    cases hlen : i.frameLen with
    | some n =>
      rcases Nat.lt_or_ge s.config.frameCap n with hn | hn
      · cases (exec_of_long hi hlen hn).symm.trans h
      · obtain ⟨r, hr⟩ := classified_of_frameLen hlen s.config.capacity
        obtain ⟨t, ht⟩ := hregs.transport_answers r
        cases ((exec_eq_transport hlen hi hn hr).trans ht).symm.trans h
    | none =>
      cases i <;> simp only [Instr.frameLen, reduceCtorEq] at hlen
      case reset => exact hreset rfl
      case ready => cases (exec_ready hi).symm.trans h
      case data =>
        by_cases hs : s.state = .complete
        · cases (exec_data_of_complete hi hs hregs.bufLen_le).symm.trans h
        · cases (exec_data_of_not_complete hi hs).symm.trans h

/-- Settles O42: no step faults unless its instruction does. -/
theorem invariantStatesNeverFault : Obligations.InvariantStatesNeverFault := by
  intro s why hinv h
  rcases step_cases s with ⟨-, hs⟩ | ⟨op, rest, i, -, -, hs⟩ | ⟨op, rest, why, -, -, hs⟩ <;> rw [hs] at h
  · cases h
  · exact (hinv.dequeued rest).exec_no_fault i why h
  · cases h

end Sys2Proof.Machine

/-! ### Cells that are not architectural (spec/10_state.md rule R12, decision D15) -/

namespace Sys2Proof.Machine

/-- The registers of `s` over another memory. -/
def State.withBuf (s : State) (m : List Host.Cell) : State := { s with buf := m }

/-- Two states that cannot be told apart are one state with two memories that agree below `buf_len`. -/
theorem exists_withBuf_of_sameArchitectural {s u : State} (h : SameArchitectural s u) :
    ∃ m, s = u.withBuf m ∧ ∀ a, a < u.bufLen.toNat → Memory.read m a = u.cell a := by
  have hlen : s.bufLen = u.bufLen := by rw [h.rest]
  exact ⟨s.buf, h.rest, fun a ha => h.cells a (hlen ▸ ha)⟩

/-- Of the output ports, `rd_byte` alone reads `BUF` (R124). -/
theorem State.portsOut_withBuf {s : State} {m : List Host.Cell} {idx : Length}
    (h : (s.withBuf m).rdByte idx = s.rdByte idx) : (s.withBuf m).portsOut idx = s.portsOut idx := by
  unfold State.portsOut
  rw [h]
  rfl

theorem State.bufSlice_eq (s : State) :
    s.bufSlice = if s.bufLen.toNat ≤ s.config.capacity.toNat then some s.buffer else none := by
  rw [State.bufSlice, State.memRead, Nat.zero_add]
  rfl

/-- Two outcomes with the same answer, fault or refusal, and next states that cannot be told apart. -/
inductive AnswersAlike : Host.Outcome State Fault Refusal → Host.Outcome State Fault Refusal → Prop where
  | next {t v : State} (h : SameArchitectural t v) : AnswersAlike (.next t) (.next v)
  | fault (why : Fault) : AnswersAlike (.fault why) (.fault why)
  | refused (why : Refusal) : AnswersAlike (.refused why) (.refused why)

section

variable {s u : State} (h : SameArchitectural s u)

include h

theorem SameArchitectural.config_eq : s.config = u.config := by rw [h.rest]
theorem SameArchitectural.initialised_eq : s.initialised = u.initialised := by rw [h.rest]
theorem SameArchitectural.state_eq : s.state = u.state := by rw [h.rest]
theorem SameArchitectural.bufLen_eq : s.bufLen = u.bufLen := by rw [h.rest]
theorem SameArchitectural.expectedSequence_eq : s.expectedSequence = u.expectedSequence := by rw [h.rest]
theorem SameArchitectural.expectedTotal_eq : s.expectedTotal = u.expectedTotal := by rw [h.rest]
theorem SameArchitectural.output_eq : s.output = u.output := by rw [h.rest]
theorem SameArchitectural.pending_eq : s.pending = u.pending := by rw [h.rest]
theorem SameArchitectural.ready_eq : s.ready = u.ready := by rw [h.rest]; rfl
theorem SameArchitectural.wanted_eq (payload : List Byte) : s.wanted payload = u.wanted payload := by rw [h.rest]; rfl

/-! #### Every operation keeps the relation -/

theorem SameArchitectural.present (o : Option Observation) : SameArchitectural (s.present o) (u.present o) := by
  obtain ⟨m, rfl, hcells⟩ := exists_withBuf_of_sameArchitectural h
  exact ⟨rfl, hcells⟩

theorem SameArchitectural.dequeued (rest : List HostOp) : SameArchitectural (s.dequeued rest) (u.dequeued rest) := by
  obtain ⟨m, rfl, hcells⟩ := exists_withBuf_of_sameArchitectural h
  exact ⟨rfl, hcells⟩

theorem SameArchitectural.openTransfer (total : Length) (sn : Nibble) (p : Phase) :
    SameArchitectural (s.openTransfer total sn p) (u.openTransfer total sn p) := by
  obtain ⟨m, rfl, hcells⟩ := exists_withBuf_of_sameArchitectural h
  exact ⟨rfl, hcells⟩

/-- Where nothing is held, no cell is architectural. -/
theorem SameArchitectural.clearRegisters : SameArchitectural s.clearRegisters u.clearRegisters := by
  obtain ⟨m, rfl, -⟩ := exists_withBuf_of_sameArchitectural h
  exact ⟨rfl, nofun⟩

theorem SameArchitectural.bufReset : SameArchitectural s.bufReset u.bufReset := by
  obtain ⟨m, rfl, -⟩ := exists_withBuf_of_sameArchitectural h
  exact ⟨rfl, nofun⟩

/-- The bytes appended are the same, and those below them already were. -/
theorem SameArchitectural.appended (bytes : List Byte) : SameArchitectural (s.appended bytes) (u.appended bytes) := by
  obtain ⟨m, rfl, hcells⟩ := exists_withBuf_of_sameArchitectural h
  refine ⟨rfl, fun a ha => ?_⟩
  have hlt : a < u.bufLen.toNat + bytes.length := Nat.lt_of_lt_of_le ha (Nat.mod_le _ _)
  by_cases hold : a < u.bufLen.toNat
  · have hs : ((u.withBuf m).appended bytes).cell a = Memory.read m a := State.appended_cell_outside _ (.inl hold)
    rw [hs, u.appended_cell_outside (.inl hold), hcells a hold]
  · obtain ⟨i, rfl⟩ := Nat.exists_eq_add_of_le (Nat.le_of_not_lt hold)
    have hi : i < bytes.length := by omega
    exact ((u.withBuf m).appended_cell_inside hi).trans (u.appended_cell_inside hi).symm

/-- The registers that an accepted Consecutive Frame writes after its bytes (R103). -/
theorem SameArchitectural.advance (sn : Nibble) (p : Phase) :
    SameArchitectural { s with expectedSequence := sn, state := p } { u with expectedSequence := sn, state := p } := by
  obtain ⟨m, rfl, hcells⟩ := exists_withBuf_of_sameArchitectural h
  exact ⟨rfl, hcells⟩

theorem SameArchitectural.raise (f : Failure) : SameArchitectural (s.raise f) (u.raise f) := by
  unfold State.raise
  rw [h.state_eq]
  split
  · exact h.clearRegisters.present _
  · exact h.present _

theorem SameArchitectural.buffer_eq : s.buffer = u.buffer := by
  unfold State.buffer
  rw [← h.bufLen_eq]
  exact State.bytesFrom_congr fun i hi => h.cells _ (by omega)

/-! #### Every instruction answers alike -/

/-- `buf_append` reads the registers alone. -/
theorem SameArchitectural.bufAppend (bytes : List Byte) :
    (s.bufAppend bytes = none ∧ u.bufAppend bytes = none) ∨
    ∃ t v, s.bufAppend bytes = some t ∧ u.bufAppend bytes = some v ∧ SameArchitectural t v := by
  rw [State.bufAppend_eq, State.bufAppend_eq, h.config_eq, h.bufLen_eq]
  split
  · exact .inl ⟨rfl, rfl⟩
  · exact .inr ⟨_, _, rfl, rfl, h.appended bytes⟩

theorem SameArchitectural.acceptSingle (L : Nibble) (payload : List Byte) :
    AnswersAlike (s.acceptSingle L payload) (u.acceptSingle L payload) := by
  unfold State.acceptSingle
  rcases h.bufReset.bufAppend payload with ⟨hs, hu⟩ | ⟨t, v, hs, hu, htv⟩ <;> rw [hs, hu]
  · exact .next (h.raise _)
  · exact .next ((htv.openTransfer _ _ _).present _)

theorem SameArchitectural.acceptFirst (total : Length) (chunk : List Byte) :
    AnswersAlike (s.acceptFirst total chunk) (u.acceptFirst total chunk) := by
  unfold State.acceptFirst
  split
  · exact .next (h.raise _)
  rcases h.bufReset.bufAppend chunk with ⟨hs, hu⟩ | ⟨t, v, hs, hu, htv⟩ <;> rw [hs, hu]
  · exact .next (h.raise _)
  · exact .next ((htv.openTransfer _ _ _).present _)

theorem SameArchitectural.acceptConsecutive (sn : Nibble) (payload : List Byte) :
    AnswersAlike (s.acceptConsecutive sn payload) (u.acceptConsecutive sn payload) := by
  unfold State.acceptConsecutive
  rw [h.state_eq, h.expectedSequence_eq, h.expectedTotal_eq, h.bufLen_eq, h.wanted_eq]
  split
  · exact .next (h.raise _)
  split
  · exact .next (h.raise _)
  rcases h.bufAppend (u.wanted payload) with ⟨hs, hu⟩ | ⟨t, v, hs, hu, htv⟩ <;> rw [hs, hu]
  · exact .fault _
  · exact .next ((htv.advance _ _).present _)

theorem SameArchitectural.transport (r : Classified) : AnswersAlike (s.transport r) (u.transport r) := by
  match r with
  | .error f => exact .next (h.raise f)
  | .ok (.single L, payload) => exact h.acceptSingle L payload
  | .ok (.first total, chunk) => exact h.acceptFirst total chunk
  | .ok (.consecutive sn, payload) => exact h.acceptConsecutive sn payload
  | .ok (.flowControl, _) => exact .next (h.raise _)

theorem SameArchitectural.updateWith (n : Nat) (r : Classified) :
    AnswersAlike (s.updateWith n r) (u.updateWith n r) := by
  have hrefusal : s.updateRefusal n = u.updateRefusal n := by
    unfold State.updateRefusal
    rw [h.initialised_eq, h.config_eq]
  unfold State.updateWith
  rw [hrefusal]
  split
  · exact .refused _
  · exact h.transport r

theorem SameArchitectural.execReady : AnswersAlike (execReady s) (execReady u) := by
  unfold Machine.execReady
  rw [h.initialised_eq, h.ready_eq]
  split
  · exact .refused _
  · exact .next (h.present _)

/-- DATA returns the bytes below `buf_len`, which are the same. -/
theorem SameArchitectural.execData : AnswersAlike (execData s) (execData u) := by
  have hslice : s.bufSlice = u.bufSlice := by
    rw [State.bufSlice_eq, State.bufSlice_eq, h.config_eq, h.bufLen_eq, h.buffer_eq]
  unfold Machine.execData
  rw [h.initialised_eq, h.state_eq, hslice]
  split
  · exact .refused _
  split
  · split
    · exact .fault _
    · exact .next (h.present _)
  · exact .next (h.present _)

theorem SameArchitectural.exec (i : Instr) : AnswersAlike (exec i s) (exec i u) := by
  cases hr : classified s.config.capacity i with
  | some r =>
    obtain ⟨n, hn, hs⟩ := exec_of_classified hr
    obtain ⟨k, hk, hu⟩ := exec_of_classified (h.config_eq ▸ hr)
    cases hn.symm.trans hk
    rw [hs, hu]
    exact h.updateWith n r
  | none =>
    cases i <;> simp only [classified, reduceCtorEq] at hr
    case reset =>
      obtain ⟨m, rfl, -⟩ := exists_withBuf_of_sameArchitectural h
      exact .next ⟨rfl, nofun⟩
    case ready => exact h.execReady
    case data => exact h.execData

theorem SameArchitectural.step : AnswersAlike (step s) (step u) := by
  rcases step_cases u with ⟨hp, hu⟩ | ⟨op, rest, i, hp, hd, hu⟩ | ⟨op, rest, why, hp, hd, hu⟩ <;>
    rw [hu]
  · rw [step_of_idle (h.pending_eq.trans hp)]
    exact .next (h.present none)
  · rw [step_of_decoded (h.pending_eq.trans hp) (h.config_eq ▸ hd)]
    exact (h.dequeued rest).exec i
  · rw [step_of_rejected (h.pending_eq.trans hp) (h.config_eq ▸ hd)]
    exact .refused _

/-! #### What the ports show -/

/-- A read below `buf_len` shows an architectural cell, any other shows 0x00. -/
theorem SameArchitectural.rdByte_eq (idx : Length) : s.rdByte idx = u.rdByte idx := by
  have hvalid : s.dataValid = u.dataValid := by rw [h.rest]; rfl
  unfold State.rdByte
  rw [hvalid, h.bufLen_eq]
  split
  case isTrue hread => simp only [State.readByte, h.cells _ (h.bufLen_eq ▸ hread.2)]
  case isFalse => rfl

theorem SameArchitectural.portsOut_eq (idx : Length) : s.portsOut idx = u.portsOut idx := by
  have hrd := h.rdByte_eq idx
  obtain ⟨m, rfl, -⟩ := exists_withBuf_of_sameArchitectural h
  exact State.portsOut_withBuf hrd

end

/-- Settles O31: a simulation, with `AnswersAlike` as the relation of the outcomes. -/
theorem staleCellsAreUnobservable : Obligations.StaleCellsAreUnobservable := by
  intro s u h
  have hstep := h.step
  refine ⟨fun t hs => ?next, fun why hs => ?fault, fun why hs => ?refused, h.portsOut_eq⟩
  all_goals
    rw [hs] at hstep
    generalize step u = outcome at hstep
    cases hstep
  case next.next v htv => exact ⟨v, rfl, htv, htv.output_eq⟩
  case fault.fault | refused.refused => rfl

end Sys2Proof.Machine

/-! ### Responses are not remembered (spec/60_exceptions.md rule R161) -/

namespace Sys2Proof.Machine

section

variable (s : State) (o : Option Observation)

theorem State.raise_present (f : Failure) : (s.present o).raise f = s.raise f := by
  unfold State.raise
  rw [State.present_state]
  split <;> rfl

theorem State.bufReset_present : (s.present o).bufReset = s.bufReset.present o := rfl

theorem State.wanted_present (payload : List Byte) : (s.present o).wanted payload = s.wanted payload := rfl

/-- `buf_append` carries the output along. -/
theorem State.bufAppend_present (bytes : List Byte) :
    (s.present o).bufAppend bytes = (s.bufAppend bytes).map (·.present o) := by
  rw [State.bufAppend_eq, State.bufAppend_eq, State.present_config, State.present_bufLen]
  split <;> rfl

theorem State.acceptSingle_present (L : Nibble) (payload : List Byte) :
    (s.present o).acceptSingle L payload = s.acceptSingle L payload := by
  unfold State.acceptSingle
  rw [s.raise_present, State.bufReset_present, State.bufAppend_present]
  cases s.bufReset.bufAppend payload <;> rfl

theorem State.acceptFirst_present (total : Length) (chunk : List Byte) :
    (s.present o).acceptFirst total chunk = s.acceptFirst total chunk := by
  unfold State.acceptFirst
  rw [s.raise_present, State.bufReset_present, State.bufAppend_present]
  cases s.bufReset.bufAppend chunk <;> rfl

theorem State.acceptConsecutive_present (sn : Nibble) (payload : List Byte) :
    (s.present o).acceptConsecutive sn payload = s.acceptConsecutive sn payload := by
  unfold State.acceptConsecutive
  rw [s.raise_present, s.raise_present, State.wanted_present,
    State.bufAppend_present]
  cases s.bufAppend (s.wanted payload) <;> rfl

theorem State.transport_present (r : Classified) : (s.present o).transport r = s.transport r := by
  match r with
  | .error f => exact congrArg _ (s.raise_present o f)
  | .ok (.single L, payload) => exact s.acceptSingle_present o L payload
  | .ok (.first total, chunk) => exact s.acceptFirst_present o total chunk
  | .ok (.consecutive sn, payload) => exact s.acceptConsecutive_present o sn payload
  | .ok (.flowControl, _) => exact congrArg _ (s.raise_present o _)

theorem exec_present (i : Instr) : exec i (s.present o) = exec i s := by
  cases hr : classified s.config.capacity i with
  | some r =>
    obtain ⟨n, hn, hs⟩ := exec_of_classified hr
    obtain ⟨k, hk, ho⟩ := exec_of_classified (s := s.present o) hr
    cases hn.symm.trans hk
    rw [hs, ho, State.updateWith, State.updateWith, s.transport_present]
    rfl
  | none =>
    cases i <;> simp only [classified, reduceCtorEq] at hr
    all_goals rfl

/-- Settles O32: every outcome of an operation overwrites the output and is computed without it. -/
theorem responsesAreNotRemembered : Obligations.ResponsesAreNotRemembered := by
  intro s o
  change step (s.present o) = step s
  rcases step_cases s with ⟨hp, hs⟩ | ⟨op, rest, i, hp, hd, hs⟩ | ⟨op, rest, why, hp, hd, hs⟩ <;> rw [hs]
  · exact step_of_idle hp
  · rw [step_of_decoded (s := s.present o) hp hd]
    exact exec_present (s.dequeued rest) o i
  · exact step_of_rejected hp hd

end

/-! ### RESET and construction (spec/70_reset_and_hazards.md, section 1) -/

/-- Settles O2: RESET's register writes are those of `clearRegisters`, and `BUF` is not among them. -/
theorem resetClearsEveryRegister : Obligations.ResetClearsEveryRegister := by
  intro s
  exact ⟨_, rfl, ⟨rfl, rfl, rfl, rfl, rfl⟩, rfl, rfl, rfl, rfl, rfl, fun _ => rfl⟩

theorem State.rdByte_of_not_complete {s : State} (h : s.state ≠ .complete) (idx : Length) :
    s.rdByte idx = 0x00#8 := by
  simp [State.rdByte, State.dataValid, h]

/-- Outside `COMPLETE` the ports show nothing of `BUF` (R127). -/
theorem State.portsOut_of_not_complete {s : State} (h : s.state ≠ .complete) (m : List Host.Cell) (idx : Length) :
    (s.withBuf m).portsOut idx = s.portsOut idx :=
  State.portsOut_withBuf ((State.rdByte_of_not_complete (s := s.withBuf m) h idx).trans
    (State.rdByte_of_not_complete h idx).symm)

/-- Settles O1: no cell has been written, and IDLE hides them all. -/
theorem constructionLeavesEmptyIdle : Obligations.ConstructionLeavesEmptyIdle := by
  intro c
  refine ⟨⟨rfl, rfl, rfl, rfl, rfl⟩, rfl, rfl, rfl, rfl, fun _ => ⟨rfl, rfl⟩, fun cells => ⟨?_, fun idx => ?_⟩⟩
  · exact exec_data_of_not_complete (s := (State.construct c).withBuf cells) rfl nofun
  · exact State.portsOut_of_not_complete (s := State.construct c) nofun cells idx

/-- Settles O30: READY does not read `BUF`, DATA and `rd_byte` read it in `COMPLETE` alone. -/
theorem partialDataIsNeverExposed : Obligations.PartialDataIsNeverExposed := by
  intro s cells hi hs
  refine ⟨fun idx => (s.portsOut_of_not_complete hs cells idx).symm, State.rdByte_of_not_complete hs, ?_⟩
  rintro i (rfl | rfl)
  · exact ⟨_, exec_ready hi, exec_ready (s := s.withBuf cells) hi⟩
  · exact ⟨_, exec_data_of_not_complete hi hs, exec_data_of_not_complete (s := s.withBuf cells) hi hs⟩

/-! ### The output ports (spec/43_host_ops.md, section 2) -/

theorem State.response?_of_output {s : State} {r : Response} (h : s.output = some (.response r)) :
    s.response? = some r := by
  simp [State.response?, h]

/-- Settles O43: the response port is read off the response, and RESET, READY and DATA present no response. -/
theorem responsePortImages : Obligations.ResponsePortImages := by
  refine ⟨fun s r idx hout => ?response, fun i s t idx hi h => ?none⟩
  case response =>
    have hr := State.response?_of_output hout
    refine ⟨?_, ?_, ?_, ?_⟩
    all_goals
      simp only [State.portsOut, hr, Option.isSome_some, Option.map_some, Option.getD_some]
    · cases r <;> rfl
    · cases r <;> rfl
    · rcases r with _ | _ | f
      · rfl
      · rfl
      · cases f <;> rfl
  case none =>
    rcases exec_next h with ⟨r, hr, -⟩ | ⟨-, rfl⟩ | ⟨-, -, rfl⟩ | ⟨-, -, -, -, rfl⟩ | ⟨-, -, -, rfl⟩
    case inl => rcases hi with rfl | rfl | rfl <;> cases hr
    all_goals rfl

theorem State.rdByte_of_held {s : State} {idx : Length} (hs : s.state = .complete) (h : idx.toNat < s.bufLen.toNat) :
    s.rdByte idx = s.readByte idx.toNat := by
  simp [State.rdByte, State.dataValid, hs, h]

theorem State.rdByte_of_past {s : State} {idx : Length} (h : s.bufLen.toNat ≤ idx.toNat) : s.rdByte idx = 0x00#8 :=
  if_neg fun hread => Nat.not_lt.2 h hread.2

theorem State.dataLen_of_complete {s : State} (hs : s.state = .complete) : s.dataLen = s.bufLen := by
  simp [State.dataLen, State.dataValid, hs]

/-- Settles O44: in `COMPLETE` both DATA and the data port read the cells below `buf_len`. -/
theorem dataPortCarriesData : Obligations.DataPortCarriesData := by
  intro s hi hcap
  by_cases hs : s.state = .complete
  · have hvalid : s.dataValid = true := decide_eq_true hs
    refine ⟨some s.buffer, exec_data_of_complete hi hs hcap, by simp [hvalid], fun _ => ⟨s.buffer, rfl, ?_⟩, ?_⟩
    · rw [State.dataLen_of_complete hs]
      exact ⟨s.buffer_length, fun idx hidx => by rw [State.rdByte_of_held hs hidx, s.buffer_getElem? hidx]⟩
    · rintro idx (hinvalid | hpast)
      · cases hvalid.symm.trans hinvalid
      · exact State.rdByte_of_past (State.dataLen_of_complete hs ▸ hpast)
  · have hvalid : s.dataValid = false := decide_eq_false hs
    exact ⟨none, exec_data_of_not_complete hi hs, fun _ => rfl, by simp [hvalid],
      fun idx _ => State.rdByte_of_not_complete hs idx⟩

/-! ### The input ports (spec/43_host_ops.md rule R125, rule R173) -/

/-- A request is carried out by itself, ahead of the operations that wait, which stay (log entry 19). -/
theorem portStep_of_operation {p : PortsIn} {s : State} {op : HostOp} {i : Instr}
    (hop : p.operation s.config = .ok (some op)) (hd : decode s.config op = .ok i) : portStep p s = exec i s := by
  rw [portStep, hop]
  exact step_of_decoded (s := { s with pending := op :: s.pending }) rfl hd

theorem portStep_of_refused {p : PortsIn} {s : State} {why : Refusal} (hop : p.operation s.config = .error why) :
    portStep p s = .refused why := by
  rw [portStep, hop]

/-- Settles O46: the three request patterns without an UPDATE alone. -/
theorem portRequestsAreSerialised : Obligations.PortRequestsAreSerialised := by
  intro p s
  refine ⟨fun hrst hvalid => ?_, fun hrst hvalid => ?_, fun hrst hvalid => ?_⟩
  · exact portStep_of_operation (op := .reset) (by simp [PortsIn.operation, hrst, hvalid]) rfl
  · exact portStep_of_refused (by simp [PortsIn.operation, hrst, hvalid])
  · simp [portStep, PortsIn.operation, hrst, hvalid, State.present]

theorem portStep_update {p : PortsIn} {s : State} (hrst : p.rst = false) (hvalid : p.frameValid = true)
    (hlen : p.frameLen ≤ s.config.frameCap) :
    portStep p s = exec (.update (p.frameData.take p.frameLen)) s := by
  have hfits : (p.frameData.take p.frameLen).length ≤ s.config.frameCap := by
    rw [List.length_take]
    omega
  rw [portStep_of_operation (PortsIn.operation_update hrst hvalid hlen) (decode_update_of_fits hfits)]
  exact (updateRunsItsFrameRow _ s).symm

/-- Settles O45: inside the contract the request is the UPDATE of its lanes below `frame_len`, above it the refusal
reads no lane, and the width of `frame_len` is enough for every length inside. -/
theorem framePortRequestsOneUpdate : Obligations.FramePortRequestsOneUpdate := by
  intro p s hrst hvalid hwf
  refine ⟨portStep_update hrst hvalid, fun hlong => ?_, fun lanes _ hlanes => ?_, fun n hn => ?_⟩
  · exact portStep_of_refused (PortsIn.operation_tooLong hrst hvalid hlong)
  · rcases Nat.lt_or_ge s.config.frameCap p.frameLen with hlong | hlen
    · rw [portStep_of_refused (PortsIn.operation_tooLong hrst hvalid hlong),
        portStep_of_refused (PortsIn.operation_tooLong (p := { p with frameData := lanes }) hrst hvalid hlong)]
    · rw [portStep_update hrst hvalid hlen, portStep_update (p := { p with frameData := lanes }) hrst hvalid hlen]
      exact congrArg (fun f => exec (.update f) s) hlanes
  · exact ⟨hwf.1, lt_two_pow_frameLenWidth hn⟩

end Sys2Proof.Machine

/-! ### One rule per frame type (spec/42_update_frames.md rule R101 to rule R103) -/

namespace Sys2Proof.Machine

section

variable {s : State} (hi : s.initialised = true)

include hi

theorem exec_sf {L : Nibble} {rest : List Byte} (hn : rest.length + 1 ≤ s.config.frameCap) :
    exec (.sf L rest) s = s.transport (classifySingle L rest) :=
  State.updateWith_of_accepted hi hn _

theorem exec_sf_short {L : Nibble} {rest : List Byte} (hn : rest.length + 1 ≤ s.config.frameCap)
    (h : rest.length < L.toNat) : exec (.sf L rest) s = .next (s.respond (.err .lengthMismatch)) := by
  rw [exec_sf hi hn, classifySingle, if_pos h]
  exact congrArg _ (State.raise_of_keeps rfl)

theorem exec_sf_overflow {L : Nibble} {rest : List Byte} (hn : rest.length + 1 ≤ s.config.frameCap)
    (hlen : L.toNat ≤ rest.length) (hcap : s.config.capacity.toNat < L.toNat) :
    exec (.sf L rest) s = .next (s.raise .overflow) := by
  rw [exec_sf hi hn, classifySingle, if_neg (Nat.not_lt.2 hlen)]
  exact State.acceptSingle_of_exceeds (by rwa [single_payload_length hlen])

theorem exec_sf_accepted {L : Nibble} {rest : List Byte} (hn : rest.length + 1 ≤ s.config.frameCap)
    (hlen : L.toNat ≤ rest.length) (hcap : L.toNat ≤ s.config.capacity.toNat) :
    exec (.sf L rest) s =
      .next ((s.opened (rest.take L.toNat) (L.setWidth 12) 0#4).respond (.okSome (L.setWidth 12))) := by
  rw [exec_sf hi hn, classifySingle, if_neg (Nat.not_lt.2 hlen), ← s.openTransfer_single hlen]
  exact State.acceptSingle_of_fits (by rwa [single_payload_length hlen])

theorem exec_ff {total : Length} {chunk : List Byte} (hn : chunk.length + 2 ≤ s.config.frameCap) :
    exec (.ff total chunk) s = s.transport (classifyFirst s.config.capacity total chunk) :=
  State.updateWith_of_accepted hi hn _

theorem exec_ff_tooLarge {total : Length} {chunk : List Byte} (hn : chunk.length + 2 ≤ s.config.frameCap)
    (h : s.config.capacity.toNat < total.toNat) :
    exec (.ff total chunk) s = .next (s.respond (.err .tooLarge)) := by
  rw [exec_ff hi hn, classifyFirst, if_pos h]
  exact congrArg _ (State.raise_of_keeps rfl)

theorem exec_ff_overflow {total : Length} {chunk : List Byte} (hn : chunk.length + 2 ≤ s.config.frameCap)
    (hcap : total.toNat ≤ s.config.capacity.toNat) (hlen : total.toNat < chunk.length) :
    exec (.ff total chunk) s = .next (s.raise .overflow) := by
  rw [exec_ff hi hn, classifyFirst, if_neg (Nat.not_lt.2 hcap)]
  exact State.acceptFirst_of_exceeds hlen

theorem exec_ff_accepted {total : Length} {chunk : List Byte} (hn : chunk.length + 2 ≤ s.config.frameCap)
    (hcap : total.toNat ≤ s.config.capacity.toNat) (hlen : chunk.length ≤ total.toNat) :
    exec (.ff total chunk) s = .next ((s.opened chunk total 1#4).respond (.okSome total)) := by
  rw [exec_ff hi hn, classifyFirst, if_neg (Nat.not_lt.2 hcap)]
  exact State.acceptFirst_of_fits hlen (hlen.trans hcap)

theorem exec_cf {sn : Nibble} {payload : List Byte} (hn : payload.length + 1 ≤ s.config.frameCap) :
    exec (.cf sn payload) s = s.acceptConsecutive sn payload :=
  State.updateWith_of_accepted hi hn _

theorem exec_cf_unexpected {sn : Nibble} {payload : List Byte} (hn : payload.length + 1 ≤ s.config.frameCap)
    (hs : s.state ≠ .receiving) : exec (.cf sn payload) s = .next (s.respond (.err .unexpectedFrame)) := by
  rw [exec_cf hi hn, State.acceptConsecutive_of_not_receiving hs, State.raise_of_keeps rfl]

theorem exec_cf_mismatch {sn : Nibble} {payload : List Byte} (hn : payload.length + 1 ≤ s.config.frameCap)
    (hs : s.state = .receiving) (hsn : sn ≠ s.expectedSequence) :
    exec (.cf sn payload) s = .next (s.abort.respond (.err .sequenceMismatch)) := by
  rw [exec_cf hi hn, State.acceptConsecutive_of_mismatch hs hsn, State.raise_of_aborts rfl]

theorem exec_cf_accepted {payload : List Byte} (hn : payload.length + 1 ≤ s.config.frameCap)
    (hs : s.state = .receiving)
    (hfits : s.bufLen.toNat + (s.wanted payload).length ≤ s.config.capacity.toNat) :
    exec (.cf s.expectedSequence payload) s = .next ((s.continued payload).respond .okNone) := by
  rw [exec_cf hi hn, State.acceptConsecutive_of_fits hs hfits]

theorem exec_cf_no_room {payload : List Byte} (hn : payload.length + 1 ≤ s.config.frameCap)
    (hs : s.state = .receiving)
    (hno : s.config.capacity.toNat < s.bufLen.toNat + (s.wanted payload).length) :
    exec (.cf s.expectedSequence payload) s = .fault .noSuchBufferCell := by
  rw [exec_cf hi hn, State.acceptConsecutive_of_no_room hs hno]

end

theorem State.raise_overflow_of_receiving {s : State} (hs : s.state = .receiving) :
    s.raise .overflow = s.abort.respond (.err .overflow) :=
  State.raise_of_aborts (decide_eq_true hs)

theorem State.raise_overflow_of_not_receiving {s : State} (hs : s.state ≠ .receiving) :
    s.raise .overflow = s.respond (.err .overflow) :=
  State.raise_of_keeps (decide_eq_false hs)

/-- Settles O4: the first three failures are the classifier's or the state test's and abort nothing; a Single Frame
that carries what it declares passes the classifier. -/
theorem rejectedFramesChangeNothing : Obligations.RejectedFramesChangeNothing := by
  intro s rest hi hn
  refine ⟨fun L => exec_sf_short hi hn, fun L t hlen h => ?_, fun total hn' => exec_ff_tooLarge hi hn',
    fun sn => exec_cf_unexpected hi hn⟩
  rcases Nat.lt_or_ge s.config.capacity.toNat L.toNat with hcap | hcap
  · rw [exec_sf_overflow hi hn hlen hcap] at h
    cases h
    rw [State.raise_output]
    nofun
  · rw [exec_sf_accepted hi hn hlen hcap] at h
    cases h
    nofun

/-- Settles O5: an accepted Single Frame opens a transfer of `L` bytes with all of them. -/
theorem singleFrameEffect : Obligations.SingleFrameEffect := by
  intro L rest s hi hn
  refine ⟨fun hlen hcap hs => ?kept, fun hlen hcap hs => ?aborted, fun hlen hcap => ?accepted⟩
  case kept =>
    rw [exec_sf_overflow hi hn hlen hcap, State.raise_overflow_of_not_receiving hs]
    rfl
  case aborted =>
    rw [exec_sf_overflow hi hn hlen hcap, State.raise_overflow_of_receiving hs]
    rfl
  case accepted =>
    have hpayload := single_payload_length hlen
    have hfits : (rest.take L.toNat).length ≤ s.config.capacity.toNat := by rwa [hpayload]
    have hcomplete := s.opened_single_state hlen
    refine ⟨_, exec_sf_accepted hi hn hlen hcap, hcomplete, decide_eq_true hcomplete,
      (State.opened_bufLen (L.setWidth 12) 0#4 hfits).trans hpayload, rfl, nibble_setWidth_toNat L, rfl, rfl,
      State.opened_buffer (L.setWidth 12) 0#4 hfits, fun i hlt => ?_,
      fun a ha => State.opened_cell_outside (L.setWidth 12) 0#4 (hpayload.trans_le ha), rfl, rfl, rfl⟩
    calc (s.opened (rest.take L.toNat) (L.setWidth 12) 0#4).cell i
        = (rest.take L.toNat)[i]? := State.opened_cell_getElem? _ _ (hlt.trans_eq hpayload.symm)
      _ = rest[i]? := List.getElem?_take_of_lt hlt

/-- Settles O6: an accepted First Frame opens a transfer of `total` bytes with the initial chunk. -/
theorem firstFrameEffect : Obligations.FirstFrameEffect := by
  intro total chunk s hi hn
  refine ⟨fun hcap hlen hs => ?kept, fun hcap hlen hs => ?aborted, fun hcap hlen => ?accepted⟩
  case kept =>
    rw [exec_ff_overflow hi hn hcap hlen, State.raise_overflow_of_not_receiving hs]
    rfl
  case aborted =>
    rw [exec_ff_overflow hi hn hcap hlen, State.raise_overflow_of_receiving hs]
    rfl
  case accepted =>
    have hfits := hlen.trans hcap
    have hready : (s.opened chunk total 1#4).ready = decide (chunk.length = total.toNat) :=
      decide_eq_decide.2 phaseAfter_eq_complete
    exact ⟨_, exec_ff_accepted hi hn hcap hlen, rfl, hready, State.opened_bufLen total 1#4 hfits, rfl, rfl, rfl, rfl,
      State.opened_buffer total 1#4 hfits, fun _ => State.opened_cell_getElem? total 1#4,
      fun _ => State.opened_cell_outside total 1#4, rfl, rfl, rfl⟩

/-- Settles O7: an accepted Consecutive Frame appends the bytes that are still wanted. -/
theorem consecutiveFrameEffect : Obligations.ConsecutiveFrameEffect := by
  intro sn payload s hi hn
  refine ⟨fun hs hsn => exec_cf_mismatch hi hn hs hsn, ?_⟩
  rintro hs rfl n rfl hfits
  have hwanted : (s.wanted payload).length = min payload.length s.remaining := s.wanted_length payload
  have hroom : s.bufLen.toNat + (s.wanted payload).length ≤ s.config.capacity.toNat := by rwa [hwanted]
  have hsequence : (s.expectedSequence + 1#4).toNat = (s.expectedSequence.toNat + 1) % 16 := BitVec.toNat_add _ _
  refine ⟨_, exec_cf_accepted hi hn hs hroom, ?_, ?_, rfl, rfl, hsequence, rfl, State.continued_buffer hroom,
    fun i hlt => State.continued_cell_getElem? (hlt.trans_eq hwanted.symm),
    fun a ha => State.continued_cell_outside (by rwa [hwanted]), rfl, rfl, rfl⟩
  · show phaseAfter (s.bufLen.toNat + (s.wanted payload).length) s.expectedTotal.toNat = _
    rw [hwanted]
    rfl
  · exact (State.continued_bufLen hroom).trans (congrArg _ hwanted)

/-- Settles O23: both operations test the address before they touch a cell. -/
theorem missingBufferCellsFault : Obligations.MissingBufferCellsFault := by
  intro s hi
  refine ⟨fun hs hcap => ?data, fun payload hs hn hno => ?cf⟩
  case data => simp [exec, execData, hi, hs, State.bufSlice_eq, Nat.not_le.2 hcap]
  case cf => exact exec_cf_no_room hi hn hs (by rwa [s.wanted_length])

/-! ### The buffer (spec/20_memory.md, section 2; spec/41_buffer.md) -/

theorem State.memRead_of_fits {s : State} {addr n : Nat} (h : addr + n ≤ s.config.capacity.toNat) :
    s.memRead addr n = some (s.bytesFrom addr n) :=
  if_pos h

/-- Settles O24: a run that lies inside `BUF` is written cell by cell and read back in the same order. -/
theorem memoryPrimitivesReadAndWrite : Obligations.MemoryPrimitivesReadAndWrite := by
  intro s addr v h
  have hinside (i : Nat) (hlt : i < v.length) :
      (s.withBuf (Memory.writeBytes s.buf addr v)).cell (addr + i) = some v[i] :=
    Memory.read_writeBytes_inside _ _ _ hlt
  refine ⟨s.withBuf (Memory.writeBytes s.buf addr v), if_pos h, rfl, fun i hlt => ?_,
    fun a ha => Memory.read_writeBytes_outside _ _ ha, ?_, fun n hn => ?_⟩
  · rw [hinside i hlt, List.getElem?_eq_getElem hlt]
  · exact (if_pos h).trans (congrArg some (State.bytesFrom_eq hinside))
  · refine ⟨_, State.memRead_of_fits hn, s.bytesFrom_length addr n, fun i hlt => ?_⟩
    rw [List.getElem?_eq_getElem (by rwa [s.bytesFrom_length]), State.bytesFrom_getElem]

/-- Settles O25: `appended` is the state of a `buf_append` that fits. -/
theorem appendChecksThenStores : Obligations.AppendChecksThenStores := by
  intro s bytes
  refine ⟨State.bufAppend_of_exceeds, fun h => ⟨_, State.bufAppend_of_fits h, rfl, State.appended_bufLen h,
    fun i hlt => ?_, fun _ => s.appended_cell_outside⟩⟩
  rw [s.appended_cell_inside hlt, List.getElem?_eq_getElem hlt]

/-- Settles O34: the words are closed, and the decoder computes. -/
theorem workedEncodingsDecode : Obligations.WorkedEncodingsDecode := by
  unfold Obligations.WorkedEncodingsDecode
  decide

end Sys2Proof.Machine

/-! ### Frames by their bytes, and everything an UPDATE on raw bytes can do (rule R100) -/

namespace Sys2Proof.Machine

/-- The bytes of a Single Frame (R53). -/
def singleFrame (L : Nibble) (rest : List Byte) : List Byte := byte0 0x0#4 L :: rest

/-- The bytes of a First Frame with its whole header (R54). -/
def firstFrame (total : Length) (chunk : List Byte) : List Byte :=
  byte0 0x1#4 (lengthHigh total) :: lengthLow total :: chunk

/-- The bytes of a Consecutive Frame (R55). -/
def consecutiveFrame (sn : Nibble) (payload : List Byte) : List Byte := byte0 0x2#4 sn :: payload

/-- The frames that are answered with one failure whatever the state and the parameters: too short for their header
(R71, R74), Flow Control (R76) and the reserved types (R77). -/
inductive RejectedFrame : List Byte → Failure → Prop where
  | empty : RejectedFrame [] .malformedFrame
  | shortFirst (lo : Nibble) : RejectedFrame [byte0 0x1#4 lo] .malformedFrame
  | flowControl (lo : Nibble) (rest : List Byte) : RejectedFrame (byte0 0x3#4 lo :: rest) .unsupported
  | reserved {b0 : Byte} (h : 4 ≤ b0.toNat / 16) (rest : List Byte) : RejectedFrame (b0 :: rest) .unknownFrameType

theorem byte0_div (t lo : Nibble) : (byte0 t lo).toNat / 16 = t.toNat := by
  rw [← typeNibble_toNat, typeNibble_byte0]

theorem frame_cases (f : List Byte) :
    (∃ L rest, f = singleFrame L rest) ∨ (∃ total chunk, f = firstFrame total chunk) ∨
    (∃ sn payload, f = consecutiveFrame sn payload) ∨ ∃ e, RejectedFrame f e := by
  rcases f with - | ⟨b0, rest⟩
  · exact .inr (.inr (.inr ⟨_, .empty⟩))
  obtain ⟨t, lo, rfl⟩ : ∃ t lo, b0 = byte0 t lo := ⟨_, _, (byte0_fields b0).symm⟩
  have htype : t = 0x0#4 ∨ t = 0x1#4 ∨ t = 0x2#4 ∨ t = 0x3#4 ∨ 4 ≤ t.toNat := by bv_omega
  rcases htype with rfl | rfl | rfl | rfl | hge
  · exact .inl ⟨lo, rest, rfl⟩
  · rcases rest with - | ⟨b1, chunk⟩
    · exact .inr (.inr (.inr ⟨_, .shortFirst lo⟩))
    · refine .inr (.inl ⟨joinLength lo b1, chunk, ?_⟩)
      rw [firstFrame, lengthHigh_joinLength, lengthLow_joinLength]
  · exact .inr (.inr (.inl ⟨lo, rest, rfl⟩))
  · exact .inr (.inr (.inr ⟨_, .flowControl lo rest⟩))
  · exact .inr (.inr (.inr ⟨_, .reserved (hge.trans_eq (byte0_div t lo).symm) rest⟩))

@[simp] theorem decodeFrame_singleFrame (L : Nibble) (rest : List Byte) :
    decodeFrame (singleFrame L rest) = .sf L rest :=
  decodeFrame_of_encode rfl rfl

@[simp] theorem decodeFrame_firstFrame (total : Length) (chunk : List Byte) :
    decodeFrame (firstFrame total chunk) = .ff total chunk :=
  decodeFrame_of_encode rfl rfl

@[simp] theorem decodeFrame_consecutiveFrame (sn : Nibble) (payload : List Byte) :
    decodeFrame (consecutiveFrame sn payload) = .cf sn payload :=
  decodeFrame_of_encode rfl rfl

/-- The row that the decoder reads determines the frame. -/
theorem eq_of_decodeFrame {f g : List Byte} {i : Instr} (h : decodeFrame f = i) (hg : encode i = .update g) : f = g :=
  HostOp.update.inj ((encode_decodeFrame f).symm.trans (h ▸ hg))

/-- A frame is classified as the row that the decoder reads from it. -/
theorem classify_of_decodeFrame {f : List Byte} {i : Instr} {capacity : Length} {r : Classified}
    (h : decodeFrame f = i) (hr : classified capacity i = some r) : classify capacity f = r :=
  Option.some.inj ((decodeFrame_classified capacity f).symm.trans (h ▸ hr))

@[simp] theorem classify_singleFrame (capacity : Length) (L : Nibble) (rest : List Byte) :
    classify capacity (singleFrame L rest) = classifySingle L rest :=
  classify_of_decodeFrame (decodeFrame_singleFrame L rest) rfl

@[simp] theorem classify_firstFrame (capacity total : Length) (chunk : List Byte) :
    classify capacity (firstFrame total chunk) = classifyFirst capacity total chunk :=
  classify_of_decodeFrame (decodeFrame_firstFrame total chunk) rfl

@[simp] theorem classify_consecutiveFrame (capacity : Length) (sn : Nibble) (payload : List Byte) :
    classify capacity (consecutiveFrame sn payload) = classifyConsecutive sn payload :=
  classify_of_decodeFrame (decodeFrame_consecutiveFrame sn payload) rfl

/-- A rejected frame is no Single, First or Consecutive Frame to the classifier. -/
theorem RejectedFrame.classify {f : List Byte} {e : Failure} (h : RejectedFrame f e) (capacity : Length) :
    classify capacity f = .error e ∨ (e = .unsupported ∧ classify capacity f = .ok (.flowControl, [])) := by
  cases h with
  | empty => exact .inl (classify_nil capacity)
  | shortFirst lo => exact .inl (classify_shortFirst capacity lo)
  | flowControl lo rest =>
    exact .inr ⟨rfl, classify_of_decodeFrame (i := .fc lo rest) (decodeFrame_of_encode rfl rfl) rfl⟩
  | reserved htype rest => exact .inl (classify_of_reserved htype capacity rest)

theorem RejectedFrame.ne_overflow {f : List Byte} {e : Failure} (h : RejectedFrame f e) : e ≠ .overflow := by
  cases h <;> nofun

theorem RejectedFrame.exec {f : List Byte} {e : Failure} (h : RejectedFrame f e) {s : State}
    (hi : s.initialised = true) (hn : f.length ≤ s.config.frameCap) :
    exec (.update f) s = .next (s.respond (.err e)) := by
  have hkeeps : e.aborts s.state = false := by cases h <;> rfl
  have hraise : Machine.exec (.update f) s = .next (s.raise e) := by
    rcases h.classify s.config.capacity with hr | ⟨rfl, hr⟩ <;>
      exact exec_eq_transport (i := .update f) rfl hi hn (congrArg some hr)
  rw [hraise, State.raise_of_keeps hkeeps]

/-- The ways an UPDATE on raw bytes can lead from `s` to `t`: the type of the frame, the test that decides, and the
effect. -/
inductive State.Updated (s t : State) : List Byte → Prop where
  | rejected {f : List Byte} {e : Failure} (hf : RejectedFrame f e) (ht : t = s.respond (.err e)) : Updated s t f
  | singleShort {L : Nibble} {rest : List Byte} (hlen : rest.length < L.toNat)
      (ht : t = s.respond (.err .lengthMismatch)) : Updated s t (singleFrame L rest)
  | singleOverflow {L : Nibble} {rest : List Byte} (hlen : L.toNat ≤ rest.length)
      (hcap : s.config.capacity.toNat < L.toNat) (ht : t = s.raise .overflow) : Updated s t (singleFrame L rest)
  | single {L : Nibble} {rest : List Byte} (hlen : L.toNat ≤ rest.length)
      (hcap : L.toNat ≤ s.config.capacity.toNat)
      (ht : t = (s.opened (rest.take L.toNat) (L.setWidth 12) 0#4).respond (.okSome (L.setWidth 12))) :
      Updated s t (singleFrame L rest)
  | firstTooLarge {total : Length} {chunk : List Byte} (hcap : s.config.capacity.toNat < total.toNat)
      (ht : t = s.respond (.err .tooLarge)) : Updated s t (firstFrame total chunk)
  | firstOverflow {total : Length} {chunk : List Byte} (hcap : total.toNat ≤ s.config.capacity.toNat)
      (hlen : total.toNat < chunk.length) (ht : t = s.raise .overflow) : Updated s t (firstFrame total chunk)
  | first {total : Length} {chunk : List Byte} (hcap : total.toNat ≤ s.config.capacity.toNat)
      (hlen : chunk.length ≤ total.toNat) (ht : t = (s.opened chunk total 1#4).respond (.okSome total)) :
      Updated s t (firstFrame total chunk)
  | unexpected {sn : Nibble} {payload : List Byte} (hs : s.state ≠ .receiving)
      (ht : t = s.respond (.err .unexpectedFrame)) : Updated s t (consecutiveFrame sn payload)
  | mismatch {sn : Nibble} {payload : List Byte} (hs : s.state = .receiving) (hsn : sn ≠ s.expectedSequence)
      (ht : t = s.abort.respond (.err .sequenceMismatch)) : Updated s t (consecutiveFrame sn payload)
  | continued {payload : List Byte} (hs : s.state = .receiving)
      (hfits : s.bufLen.toNat + (s.wanted payload).length ≤ s.config.capacity.toNat)
      (ht : t = (s.continued payload).respond .okNone) : Updated s t (consecutiveFrame s.expectedSequence payload)

theorem next_unique {o : Host.Outcome State Fault Refusal} {t v : State} (ht : o = .next t) (hv : o = .next v) :
    t = v :=
  Host.Outcome.next.inj (ht.symm.trans hv)

/-- The inversion lemma of UPDATE on raw bytes. -/
theorem exec_updated {f : List Byte} {s t : State} (h : exec (.update f) s = .next t) : s.Updated t f := by
  obtain ⟨hi, hn, -⟩ := State.updateWith_next h
  have hrow := (updateRunsItsFrameRow f s).symm.trans h
  rcases frame_cases f with ⟨L, rest, rfl⟩ | ⟨total, chunk, rfl⟩ | ⟨sn, payload, rfl⟩ | ⟨e, hf⟩
  · rw [decodeFrame_singleFrame] at hrow
    rcases Nat.lt_or_ge rest.length L.toNat with hlen | hlen
    · exact .singleShort hlen (next_unique hrow (exec_sf_short hi hn hlen))
    rcases Nat.lt_or_ge s.config.capacity.toNat L.toNat with hcap | hcap
    · exact .singleOverflow hlen hcap (next_unique hrow (exec_sf_overflow hi hn hlen hcap))
    · exact .single hlen hcap (next_unique hrow (exec_sf_accepted hi hn hlen hcap))
  · rw [decodeFrame_firstFrame] at hrow
    rcases Nat.lt_or_ge s.config.capacity.toNat total.toNat with hcap | hcap
    · exact .firstTooLarge hcap (next_unique hrow (exec_ff_tooLarge hi hn hcap))
    rcases Nat.lt_or_ge total.toNat chunk.length with hlen | hlen
    · exact .firstOverflow hcap hlen (next_unique hrow (exec_ff_overflow hi hn hcap hlen))
    · exact .first hcap hlen (next_unique hrow (exec_ff_accepted hi hn hcap hlen))
  · rw [decodeFrame_consecutiveFrame] at hrow
    by_cases hs : s.state = .receiving
    case neg => exact .unexpected hs (next_unique hrow (exec_cf_unexpected hi hn hs))
    by_cases hsn : sn = s.expectedSequence
    case neg => exact .mismatch hs hsn (next_unique hrow (exec_cf_mismatch hi hn hs hsn))
    subst hsn
    rcases Nat.lt_or_ge s.config.capacity.toNat (s.bufLen.toNat + (s.wanted payload).length) with hno | hfits
    · cases hrow.symm.trans (exec_cf_no_room hi hn hs hno)
    · exact .continued hs hfits (next_unique hrow (exec_cf_accepted hi hn hs hfits))
  · exact .rejected hf (next_unique h (hf.exec hi hn))

/-! ### The transition table (rule R108) -/

theorem byte0_mod (t lo : Nibble) : (byte0 t lo).toNat % 16 = lo.toNat := by
  rw [← lowNibble_toNat, lowNibble_byte0]

/-- The header's two length fields are the length as a number (R33, R110). -/
theorem lengthHigh_lengthLow (total : Length) :
    (lengthHigh total).toNat * 256 + (lengthLow total).toNat = total.toNat := by
  rw [← joinLength_toNat, joinLength_fields]

theorem prodMk_phaseAfter (held total : Nat) (r : Response) :
    (phaseAfter held total, r) = if held = total then (.complete, r) else (.receiving, r) := by
  unfold phaseAfter
  split <;> rfl

/-- `state` after an `Overflow` (R150). -/
def overflowPhase (p : Phase) : Phase := if p = .receiving then .idle else p

theorem transitionTable_singleFrame (s : State) (L : Nibble) (rest : List Byte) :
    transitionTable s (singleFrame L rest) =
      if rest.length < L.toNat then (s.state, .err .lengthMismatch)
      else if s.config.capacity.toNat < L.toNat then (overflowPhase s.state, .err .overflow)
      else (.complete, .okSome (L.setWidth 12)) := by
  have hL : BitVec.ofNat 12 L.toNat = L.setWidth 12 := BitVec.ofNat_toNat 12 L
  simp [transitionTable, singleFrame, byte0_div, byte0_mod, overflowPhase, hL]

theorem transitionTable_firstFrame (s : State) (total : Length) (chunk : List Byte) :
    transitionTable s (firstFrame total chunk) =
      if s.config.capacity.toNat < total.toNat then (s.state, .err .tooLarge)
      else if total.toNat < chunk.length then (overflowPhase s.state, .err .overflow)
      else (phaseAfter chunk.length total.toNat, .okSome total) := by
  simp [transitionTable, firstFrame, byte0_div, byte0_mod, lengthHigh_lengthLow, overflowPhase, prodMk_phaseAfter]

theorem transitionTable_consecutiveFrame (s : State) (sn : Nibble) (payload : List Byte) :
    transitionTable s (consecutiveFrame sn payload) =
      if s.state ≠ .receiving then (s.state, .err .unexpectedFrame)
      else if sn ≠ s.expectedSequence then (.idle, .err .sequenceMismatch)
      else (phaseAfter (s.bufLen.toNat + (s.wanted payload).length) s.expectedTotal.toNat, .okNone) := by
  have hsn : sn.toNat = s.expectedSequence.toNat ↔ sn = s.expectedSequence := BitVec.toNat_inj
  simp [transitionTable, consecutiveFrame, byte0_div, byte0_mod, hsn, s.wanted_length, State.remaining,
    prodMk_phaseAfter]

theorem transitionTable_rejected {f : List Byte} {e : Failure} (h : RejectedFrame f e) (s : State) :
    transitionTable s f = (s.state, .err e) := by
  cases h with
  | empty => rfl
  | shortFirst lo => simp [transitionTable, byte0_div]
  | flowControl lo rest => simp [transitionTable, byte0_div]
  | reserved htype rest => simp [transitionTable, htype]

/-- What the table's entry says of the next state `t`: its `state` and response, and of a failure that it is "unch."
or "ABORT". -/
def FollowsEntry (s t : State) (entry : Phase × Response) : Prop :=
  t.state = entry.1 ∧ t.output = some (.response entry.2) ∧
    (∀ e, entry.2 = .err e → t.state = s.state → t = { s with output := some (.response (.err e)) }) ∧
    (∀ e, entry.2 = .err e → t.state ≠ s.state → IdleRegisters t)

theorem followsEntry_respond_err (s : State) (e : Failure) : FollowsEntry s (s.respond (.err e)) (s.state, .err e) := by
  refine ⟨rfl, rfl, fun e' he' _ => ?_, fun _ _ hne => absurd rfl hne⟩
  cases he'
  rfl

theorem followsEntry_abort {s : State} (hs : s.state = .receiving) (e : Failure) :
    FollowsEntry s (s.abort.respond (.err e)) (.idle, .err e) := by
  refine ⟨rfl, rfl, fun _ _ hsame => ?_, fun _ _ _ => ⟨rfl, rfl, rfl, rfl, rfl⟩⟩
  cases hs.symm.trans hsame.symm

theorem followsEntry_overflow (s : State) :
    FollowsEntry s (s.raise .overflow) (overflowPhase s.state, .err .overflow) := by
  by_cases hs : s.state = .receiving
  · rw [State.raise_overflow_of_receiving hs, overflowPhase, if_pos hs]
    exact followsEntry_abort hs _
  · rw [State.raise_overflow_of_not_receiving hs, overflowPhase, if_neg hs]
    exact followsEntry_respond_err s _

theorem followsEntry_ok {s t : State} {r : Response} (hr : ∀ e, r ≠ .err e) :
    FollowsEntry s (t.respond r) (t.state, r) :=
  ⟨rfl, rfl, fun e he => absurd he (hr e), fun e he => absurd he (hr e)⟩

/-- Each case of `Updated` is one row of the table. -/
theorem State.Updated.followsTable {s t : State} {f : List Byte} (h : s.Updated t f) :
    FollowsEntry s t (transitionTable s f) := by
  cases h with
  | rejected hf ht =>
    rw [transitionTable_rejected hf, ht]
    exact followsEntry_respond_err s _
  | singleShort hlen ht =>
    rw [transitionTable_singleFrame, if_pos hlen, ht]
    exact followsEntry_respond_err s _
  | singleOverflow hlen hcap ht =>
    rw [transitionTable_singleFrame, if_neg (Nat.not_lt.2 hlen), if_pos hcap, ht]
    exact followsEntry_overflow s
  | single hlen hcap ht =>
    rw [transitionTable_singleFrame, if_neg (Nat.not_lt.2 hlen), if_neg (Nat.not_lt.2 hcap), ht,
      ← s.opened_single_state hlen]
    exact followsEntry_ok nofun
  | firstTooLarge hcap ht =>
    rw [transitionTable_firstFrame, if_pos hcap, ht]
    exact followsEntry_respond_err s _
  | firstOverflow hcap hlen ht =>
    rw [transitionTable_firstFrame, if_neg (Nat.not_lt.2 hcap), if_pos hlen, ht]
    exact followsEntry_overflow s
  | first hcap hlen ht =>
    rw [transitionTable_firstFrame, if_neg (Nat.not_lt.2 hcap), if_neg (Nat.not_lt.2 hlen), ht]
    exact followsEntry_ok nofun
  | unexpected hs ht =>
    rw [transitionTable_consecutiveFrame, if_pos hs, ht]
    exact followsEntry_respond_err s _
  | mismatch hs hsn ht =>
    rw [transitionTable_consecutiveFrame, if_neg (not_not.2 hs), if_pos hsn, ht]
    exact followsEntry_abort hs _
  | continued hs _ ht =>
    rw [transitionTable_consecutiveFrame, if_neg (not_not.2 hs), if_neg (not_not.2 rfl), ht]
    exact followsEntry_ok nofun

/-- Settles O12: in the invariant UPDATE answers, and what it answers is the table's entry. -/
theorem updateFollowsTransitionTable : Obligations.UpdateFollowsTransitionTable := by
  intro f s hinv hi hn
  obtain ⟨t, -, ht, -, -⟩ := everyUpdateResponds (.update f) f.length s hinv hi rfl hn
  exact ⟨t, ht, (exec_updated ht).followsTable⟩

/-! ### Overflow detection and write control (spec/41_buffer.md rule R94 to rule R96) -/

section

variable (s : State)

/-- R95's case (a), with the classifier's test. -/
theorem overflowDetected_singleFrame (L : Nibble) (rest : List Byte) :
    overflowDetected s (singleFrame L rest) = true ↔
      L.toNat ≤ rest.length ∧ s.config.capacity.toNat < L.toNat := by
  rw [overflowDetected, classify_singleFrame]
  by_cases h : rest.length < L.toNat
  · simp [classifySingle, h]
  · simp [classifySingle, h, Nat.le_of_not_lt h]

/-- R95's case (b), with the classifier's test. -/
theorem overflowDetected_firstFrame (total : Length) (chunk : List Byte) :
    overflowDetected s (firstFrame total chunk) = true ↔
      total.toNat ≤ s.config.capacity.toNat ∧ total.toNat < chunk.length := by
  have hlen : (firstFrame total chunk).length - 2 = chunk.length := rfl
  rw [overflowDetected, classify_firstFrame, hlen]
  by_cases h : s.config.capacity.toNat < total.toNat
  · simp [classifyFirst, h]
  · simp [classifyFirst, h, Nat.le_of_not_lt h]

theorem overflowDetected_consecutiveFrame (sn : Nibble) (payload : List Byte) :
    overflowDetected s (consecutiveFrame sn payload) = false := by
  rw [overflowDetected, classify_consecutiveFrame]
  rfl

theorem overflowDetected_rejected {f : List Byte} {e : Failure} (h : RejectedFrame f e) :
    overflowDetected s f = false := by
  rw [overflowDetected]
  rcases h.classify s.config.capacity with hr | ⟨-, hr⟩ <;> rw [hr]

theorem writeEnable_singleFrame (L : Nibble) (rest : List Byte) :
    writeEnable s (singleFrame L rest) = true ↔ L.toNat ≤ rest.length ∧ L.toNat ≤ s.config.capacity.toNat := by
  rw [writeEnable, classify_singleFrame]
  by_cases h : rest.length < L.toNat
  · simp [classifySingle, h]
  · simp [classifySingle, h, Nat.le_of_not_lt h]

theorem writeEnable_firstFrame (total : Length) (chunk : List Byte) :
    writeEnable s (firstFrame total chunk) = true ↔
      total.toNat ≤ s.config.capacity.toNat ∧ chunk.length ≤ total.toNat := by
  rw [writeEnable, classify_firstFrame]
  by_cases h : s.config.capacity.toNat < total.toNat
  · simp [classifyFirst, h]
  · simp [classifyFirst, h, Nat.le_of_not_lt h]

theorem writeEnable_consecutiveFrame (sn : Nibble) (payload : List Byte) :
    writeEnable s (consecutiveFrame sn payload) = true ↔ s.state = .receiving ∧ sn = s.expectedSequence := by
  rw [writeEnable, classify_consecutiveFrame]
  exact decide_eq_true_iff

theorem writeEnable_rejected {f : List Byte} {e : Failure} (h : RejectedFrame f e) : writeEnable s f = false := by
  rw [writeEnable]
  rcases h.classify s.config.capacity with hr | ⟨-, hr⟩ <;> rw [hr]

end

/-- R95's two cases, on the row that the decoder reads. -/
theorem overflowDetected_iff (s : State) (f : List Byte) :
    overflowDetected s f = true ↔
      (∃ L rest, decodeFrame f = .sf L rest ∧ L.toNat ≤ rest.length ∧ s.config.capacity.toNat < L.toNat) ∨
      (∃ total chunk, decodeFrame f = .ff total chunk ∧ total.toNat ≤ s.config.capacity.toNat ∧
        total.toNat < chunk.length) := by
  constructor
  · intro h
    rcases frame_cases f with ⟨L, rest, rfl⟩ | ⟨total, chunk, rfl⟩ | ⟨sn, payload, rfl⟩ | ⟨e, hf⟩
    · exact .inl ⟨L, rest, decodeFrame_singleFrame L rest, (overflowDetected_singleFrame s L rest).1 h⟩
    · exact .inr ⟨total, chunk, decodeFrame_firstFrame total chunk, (overflowDetected_firstFrame s total chunk).1 h⟩
    · cases (overflowDetected_consecutiveFrame s sn payload).symm.trans h
    · cases (overflowDetected_rejected s hf).symm.trans h
  · rintro (⟨L, rest, hrow, h⟩ | ⟨total, chunk, hrow, h⟩)
    · rw [eq_of_decodeFrame hrow (g := singleFrame L rest) rfl]
      exact (overflowDetected_singleFrame s L rest).2 h
    · rw [eq_of_decodeFrame hrow (g := firstFrame total chunk) rfl]
      exact (overflowDetected_firstFrame s total chunk).2 h

/-- An UPDATE is answered `Overflow` exactly when the detector says so. -/
theorem State.Updated.overflow_iff {s t : State} {f : List Byte} (h : s.Updated t f) :
    t.output = some (.response (.err .overflow)) ↔ overflowDetected s f = true := by
  cases h with
  | rejected hf ht => simp [ht, overflowDetected_rejected s hf, hf.ne_overflow]
  | singleShort hlen ht => simp [ht, overflowDetected_singleFrame, hlen]
  | singleOverflow hlen hcap ht => simp [ht, overflowDetected_singleFrame, hlen, hcap]
  | single hlen hcap ht => simp [ht, overflowDetected_singleFrame, hcap]
  | firstTooLarge hcap ht => simp [ht, overflowDetected_firstFrame, hcap]
  | firstOverflow hcap hlen ht => simp [ht, overflowDetected_firstFrame, hcap, hlen]
  | first hcap hlen ht => simp [ht, overflowDetected_firstFrame, hlen]
  | unexpected _ ht | mismatch _ _ ht | continued _ _ ht => simp [ht, overflowDetected_consecutiveFrame]

/-- Settles O27: the response follows the detector, and the detector is R95's two cases. -/
theorem overflowIsDetectedExactly : Obligations.OverflowIsDetectedExactly := by
  intro f s t h
  have hdetected := (exec_updated h).overflow_iff
  exact ⟨hdetected.trans (overflowDetected_iff s f), hdetected⟩

/-- The write happens exactly when the UPDATE succeeds (R94). -/
theorem State.Updated.writeEnable_iff {s t : State} {f : List Byte} (h : s.Updated t f) :
    writeEnable s f = true ↔ ∀ e, t.output ≠ some (.response (.err e)) := by
  cases h with
  | rejected hf ht => simp [ht, writeEnable_rejected s hf]
  | singleShort hlen ht => simp [ht, writeEnable_singleFrame, hlen]
  | singleOverflow _ hcap ht => simp [ht, writeEnable_singleFrame, hcap]
  | single hlen hcap ht => simp [ht, writeEnable_singleFrame, hlen, hcap]
  | firstTooLarge hcap ht => simp [ht, writeEnable_firstFrame, hcap]
  | firstOverflow _ hlen ht => simp [ht, writeEnable_firstFrame, hlen]
  | first hcap hlen ht => simp [ht, writeEnable_firstFrame, hcap, hlen]
  | unexpected hs ht => simp [ht, writeEnable_consecutiveFrame, hs]
  | mismatch _ hsn ht => simp [ht, writeEnable_consecutiveFrame, hsn]
  | continued hs _ ht => simp [ht, writeEnable_consecutiveFrame, hs]

/-- `w` describes the buffer write that led from `s` to `t` on the frame `f` (R94, R96). -/
structure WriteControl.Describes (w : WriteControl) (f : List Byte) (s t : State) : Prop where
  inside : w.base s + w.nWr ≤ s.config.capacity.toNat
  bufLen : t.bufLen.toNat = w.base s + w.nWr
  stored : ∀ i, i < w.nWr → t.cell (w.base s + i) = f[w.srcOff + i]?
  unchanged : ∀ a, a < w.base s ∨ w.base s + w.nWr ≤ a → t.cell a = s.cell a

/-- The write of a Single or First Frame, whose payload starts after a header of `off` bytes: from cell 0. -/
theorem State.describes_opened {s : State} {payload : List Byte} (total : Length) (sn : Nibble) {r : Response}
    {f : List Byte} {off n : Nat} {we : Bool} (hn : payload.length = n) (hfits : n ≤ s.config.capacity.toNat)
    (hsrc : ∀ i, i < n → f[off + i]? = payload[i]?) :
    WriteControl.Describes { clr := true, srcOff := off, nWr := n, we := we } f s
      ((s.opened payload total sn).respond r) := by
  subst hn
  have hbase : WriteControl.base { clr := true, srcOff := off, nWr := payload.length, we := we } s = 0 := rfl
  constructor <;> rw [hbase]
  case inside => rwa [Nat.zero_add]
  case bufLen => exact (State.opened_bufLen total sn hfits).trans (Nat.zero_add _).symm
  case stored =>
    intro i hlt
    rw [Nat.zero_add, hsrc i hlt]
    exact State.opened_cell_getElem? total sn hlt
  case unchanged =>
    intro a ha
    rw [Nat.zero_add] at ha
    exact State.opened_cell_outside total sn (ha.resolve_left (Nat.not_lt_zero a))

/-- The write of an accepted Consecutive Frame, whose payload starts after a header of one byte: at `buf_len`. -/
theorem State.describes_continued {s : State} {payload : List Byte} {sn : Nibble} {r : Response} {we : Bool}
    (hfits : s.bufLen.toNat + (s.wanted payload).length ≤ s.config.capacity.toNat) :
    WriteControl.Describes { clr := false, srcOff := 1, nWr := (s.wanted payload).length, we := we }
      (consecutiveFrame sn payload) s ((s.continued payload).respond r) where
  inside := hfits
  bufLen := State.continued_bufLen hfits
  stored i hlt := by
    rw [Nat.add_comm 1 i, consecutiveFrame, List.getElem?_cons_succ]
    exact State.continued_cell_getElem? hlt
  unchanged _ ha := State.continued_cell_outside ha

theorem State.Updated.describes {s t : State} {f : List Byte} (h : s.Updated t f)
    (hok : ∀ e, t.output ≠ some (.response (.err e))) : (writeControl s f).Describes f s t := by
  cases h with
  | rejected _ ht | singleShort _ ht | firstTooLarge _ ht | unexpected _ ht | mismatch _ _ ht =>
    subst ht
    exact absurd (State.respond_output _ _) (hok _)
  | singleOverflow _ _ ht | firstOverflow _ _ ht =>
    subst ht
    exact absurd (s.raise_output _) (hok _)
  | @single L rest hlen hcap ht =>
    rw [writeControl_of_sf (decodeFrame_singleFrame L rest), ht]
    refine State.describes_opened _ _ (single_payload_length hlen) hcap fun i hlt => ?_
    rw [Nat.add_comm 1 i, singleFrame, List.getElem?_cons_succ, List.getElem?_take_of_lt hlt]
  | @first total chunk hcap hlen ht =>
    rw [writeControl_of_ff (decodeFrame_firstFrame total chunk), ht]
    refine State.describes_opened _ _ rfl (hlen.trans hcap) fun i _ => ?_
    rw [Nat.add_comm 2 i]
    rfl
  | @continued payload _ hfits ht =>
    rw [writeControl_of_cf (decodeFrame_consecutiveFrame _ payload), ← s.wanted_length, ht]
    exact State.describes_continued hfits

/-- Settles O26: an UPDATE that succeeds makes the write of its frame's column, and one that fails makes none. -/
theorem writeControlDescribesTheWrite : Obligations.WriteControlDescribesTheWrite := by
  intro f s hinv hi hn w
  obtain ⟨t, -, ht, -, -⟩ := everyUpdateResponds (.update f) f.length s hinv hi rfl hn
  have hupdated := exec_updated ht
  have hwe : w.we = true ↔ ∀ e, t.output ≠ some (.response (.err e)) := by
    rw [writeControl_we]
    exact hupdated.writeEnable_iff
  refine ⟨t, ht, hwe, fun h => ?stores, fun h => ?fails⟩
  case stores =>
    obtain ⟨hinside, hbufLen, hstored, hunchanged⟩ := hupdated.describes (hwe.1 h)
    exact ⟨hinside, hbufLen, hstored, hunchanged⟩
  case fails =>
    have herr : ∃ e, t.output = some (.response (.err e)) := by
      by_contra hno
      cases h.symm.trans (hwe.2 (not_exists.1 hno))
    obtain ⟨e, he⟩ := herr
    obtain ⟨hcells, heffect⟩ := failingUpdateStoresNothing _ s t e ht he
    refine ⟨hcells, heffect.imp (fun hkept => ?_) fun ⟨hs, _, hidle, _⟩ => ⟨hs, hidle⟩⟩
    rw [hkept]

end Sys2Proof.Machine

/-! ### Transfers (spec/95_test_vectors.md, E3.1 and E3.2) -/

namespace Sys2Proof.Machine

/-- A run carries out its first operation alone, whatever waits in the queue (log entry 19). -/
theorem runOps_cons {op : HostOp} {i : Instr} {s t : State} (ops : List HostOp) (seen : List Observation)
    (hd : decode s.config op = .ok i) (h : exec i (s.dequeued []) = .next t) :
    runOps (op :: ops) seen s = runOps ops (seen ++ t.output.toList) t := by
  have hstep : step { s with pending := [op] } = .next t :=
    (step_of_decoded (s := { s with pending := [op] }) rfl hd).trans h
  rw [runOps, hstep]

/-- `s` is in a transfer of `total` bytes that fits, and holds the first of them, `bytes`. -/
structure State.Holds (s : State) (total : Length) (bytes : List Byte) : Prop where
  initialised : s.initialised = true
  total_le : total.toNat ≤ s.config.capacity.toNat
  expectedTotal : s.expectedTotal = total
  buffer : s.buffer = bytes
  length_le : bytes.length ≤ total.toNat
  state : s.state = phaseAfter bytes.length total.toNat

namespace State.Holds

variable {s : State} {total : Length} {bytes : List Byte} (h : s.Holds total bytes)

include h

theorem bufLen : s.bufLen.toNat = bytes.length := by
  rw [← s.buffer_length, h.buffer]

theorem present (o : Option Observation) : (s.present o).Holds total bytes :=
  ⟨h.initialised, h.total_le, h.expectedTotal, h.buffer, h.length_le, h.state⟩

theorem dequeued (rest : List HostOp) : (s.dequeued rest).Holds total bytes :=
  ⟨h.initialised, h.total_le, h.expectedTotal, h.buffer, h.length_le, h.state⟩

theorem receiving (hlt : bytes.length < total.toNat) : s.state = .receiving := by
  rw [h.state, phaseAfter, if_neg (Nat.ne_of_lt hlt)]

theorem state_eq_complete : s.state = .complete ↔ bytes.length = total.toNat := by
  rw [h.state, phaseAfter_eq_complete]

/-- What a Consecutive Frame adds is the chunk cut at the total (D10). -/
theorem append_wanted (chunk : List Byte) : bytes ++ s.wanted chunk = (bytes ++ chunk).take total.toNat := by
  have hremaining : s.remaining = total.toNat - bytes.length := by rw [State.remaining, h.expectedTotal, h.bufLen]
  rw [List.take_append, List.take_of_length_le h.length_le, State.wanted, hremaining, Nat.min_comm,
    ← List.take_eq_take_min]

theorem length_wanted (chunk : List Byte) :
    s.bufLen.toNat + (s.wanted chunk).length = ((bytes ++ chunk).take total.toNat).length := by
  rw [← h.append_wanted, List.length_append, h.bufLen]

theorem wanted_fits (chunk : List Byte) :
    s.bufLen.toNat + (s.wanted chunk).length ≤ s.config.capacity.toNat := by
  rw [h.length_wanted]
  exact (List.length_take_le _ _).trans h.total_le

theorem continued (chunk : List Byte) : (s.continued chunk).Holds total ((bytes ++ chunk).take total.toNat) where
  initialised := h.initialised
  total_le := h.total_le
  expectedTotal := h.expectedTotal
  buffer := by rw [State.continued_buffer (h.wanted_fits chunk), h.buffer, h.append_wanted]
  length_le := List.length_take_le _ _
  state := by
    rw [← h.length_wanted, ← h.expectedTotal]
    rfl

theorem exec_data (hcomplete : s.state = .complete) :
    exec .data s = .next (s.present (some (.data (some bytes)))) := by
  rw [← h.buffer]
  exact exec_data_of_complete h.initialised hcomplete (h.bufLen.trans_le (h.length_le.trans h.total_le))

end State.Holds

theorem State.holds_opened {s : State} {payload : List Byte} {total : Length} (sn : Nibble)
    (hi : s.initialised = true) (hcap : total.toNat ≤ s.config.capacity.toNat)
    (hlen : payload.length ≤ total.toNat) : (s.opened payload total sn).Holds total payload :=
  ⟨hi, hcap, rfl, State.opened_buffer total sn (hlen.trans hcap), hlen, rfl⟩

/-- Running one operation on a state that waits for none. -/
theorem runOps_encode_cons {i : Instr} {s t : State} {ops : List HostOp} {seen : List Observation} {n : Nat}
    (hlen : i.frameLen = some n) (hn : n ≤ s.config.frameCap) (hc : i.canonical = true)
    (h : exec i (s.dequeued []) = .next t) :
    runOps (encode i :: ops) seen s = runOps ops (seen ++ t.output.toList) t :=
  runOps_cons ops seen (decodeInvertsEncode s.config i ((Instr.wf_iff hlen s.config).2 hn) hc) h

/-- READY and then DATA on a transfer that has all its bytes. -/
theorem State.Holds.run_inspections {s : State} {total : Length} {bytes : List Byte} (h : s.Holds total bytes)
    (hall : bytes.length = total.toNat) (seen : List Observation) :
    ∃ t, runOps [.ready, .data] seen s = .next (t, seen ++ [.ready true, .data (some bytes)]) := by
  have hcomplete := h.state_eq_complete.2 hall
  have hq := h.dequeued []
  have hflag : (s.dequeued []).ready = true := decide_eq_true hcomplete
  have hready := hflag ▸ exec_ready hq.initialised
  have hdata := ((hq.present (some (.ready true))).dequeued []).exec_data hcomplete
  refine ⟨(((s.dequeued []).present (some (.ready true))).dequeued []).present (some (.data (some bytes))), ?_⟩
  rw [runOps_cons (i := .ready) _ _ rfl hready, runOps_cons (i := .data) _ _ rfl hdata, runOps]
  simp

/-- Settles O47: the Single Frame opens a transfer that has all its bytes. -/
theorem singleFrameMessageIsDelivered : Obligations.SingleFrameMessageIsDelivered := by
  intro L rest s seen hi hn hlen hcap
  have htotal := nibble_setWidth_toNat L
  have hpayload := single_payload_length hlen
  have hholds : ((s.dequeued []).opened (rest.take L.toNat) (L.setWidth 12) 0#4).Holds _ _ :=
    State.holds_opened 0#4 hi (htotal.trans_le hcap) (by omega)
  obtain ⟨t, ht⟩ := (hholds.present (some (.response (.okSome (L.setWidth 12))))).run_inspections
    (hpayload.trans htotal.symm) (seen ++ [.response (.okSome (L.setWidth 12))])
  refine ⟨t, ?_⟩
  rw [runOps_encode_cons rfl hn rfl (exec_sf_accepted (s := s.dequeued []) hi hn hlen hcap)]
  refine ht.trans ?_
  simp

theorem take_take_append {α : Type} (n : Nat) (xs ys : List α) : (xs.take n ++ ys).take n = (xs ++ ys).take n := by
  rw [List.take_append, List.take_append, List.take_take, Nat.min_self, List.length_take]
  congr 2
  omega

/-- Consecutive Frames in sequence: each but the last leaves the transfer in `RECEIVING`, so each is accepted. -/
theorem State.Holds.run_consecutive {total : Length} {chunks : List (List Byte)} {s : State} {bytes : List Byte}
    (h : s.Holds total bytes) (seen : List Observation) (hn : ∀ c ∈ chunks, c.length + 1 ≤ s.config.frameCap)
    (hshort : chunks ≠ [] → bytes.length + chunks.dropLast.flatten.length < total.toNat) :
    ∃ t, runOps (consecutiveOps s.expectedSequence chunks) seen s =
        .next (t, seen ++ chunks.map fun _ => .response .okNone) ∧
      t.Holds total ((bytes ++ chunks.flatten).take total.toNat) := by
  induction chunks generalizing s bytes seen with
  | nil => exact ⟨s, by simp [consecutiveOps, runOps], by simpa [List.take_of_length_le h.length_le] using h⟩
  | cons c rest ih =>
    have hlt : bytes.length < total.toNat := by
      have := hshort (List.cons_ne_nil c rest)
      omega
    have hc := hn c List.mem_cons_self
    have hq := h.dequeued []
    have hexec : exec (.cf s.expectedSequence c) (s.dequeued []) =
        .next (((s.dequeued []).continued c).respond .okNone) :=
      exec_cf_accepted hq.initialised hc (hq.receiving hlt) (hq.wanted_fits c)
    have hnext : rest ≠ [] → ((bytes ++ c).take total.toNat).length + rest.dropLast.flatten.length < total.toNat := by
      intro hrest
      have := hshort (List.cons_ne_nil c rest)
      rw [List.dropLast_cons_of_ne_nil hrest, List.flatten_cons, List.length_append] at this
      rw [List.length_take, List.length_append]
      omega
    obtain ⟨t, hrun, ht⟩ := ih ((hq.continued c).present (some (.response .okNone)))
      (seen ++ [.response .okNone]) (fun d hd => hn d (List.mem_cons_of_mem c hd)) hnext
    refine ⟨t, ?_, ?_⟩
    · rw [consecutiveOps, runOps_encode_cons rfl hc rfl hexec]
      refine hrun.trans ?_
      simp
    · rwa [take_take_append, List.append_assoc, ← List.flatten_cons] at ht

/-- Settles O48: the First Frame opens a transfer that holds the initial chunk, and the Consecutive Frames continue
it. -/
theorem segmentedTransferReassembles : Obligations.SegmentedTransferReassembles := by
  intro total initial chunks s seen hi hcap hn hns hlen hshort
  have hopened : ((s.dequeued []).opened initial total 1#4).Holds total initial :=
    State.holds_opened 1#4 hi hcap hlen
  obtain ⟨t, hrun, ht⟩ := (hopened.present (some (.response (.okSome total)))).run_consecutive
    (seen ++ [.response (.okSome total)]) hns hshort
  have hready : t.ready = decide (total.toNat ≤ (initial ++ chunks.flatten).length) := by
    refine decide_eq_decide.2 (ht.state_eq_complete.trans ?_)
    rw [List.length_take, min_eq_left_iff]
  refine ⟨t, ?_, ht.buffer, hready, fun h => ht.exec_data (of_decide_eq_true h)⟩
  rw [transferOps, runOps_encode_cons rfl hn rfl (exec_ff_accepted (s := s.dequeued []) hi hn hcap hlen)]
  refine hrun.trans ?_
  simp

end Sys2Proof.Machine
